-- ==== Sys2Proof/Word.lean ====
section
/-! DEFINITION. The words of the framer: bytes, 19-bit chip addresses, and the widths of the request
fields (spec/00_scope.md R4, R5: ADDR_W = LEN_W = 32, PIN_W = BLK_W = 8; log 25). -/

namespace Sys2Proof

/-- A byte, bits 7 (most significant) down to 0 (spec/00_scope.md section 6). -/
abbrev Byte := BitVec 8

/-- A masked chip address, 19 bits (spec/20_memory.md R32). -/
abbrev Addr := BitVec 19

/-- The request fields `addr` and `len` (spec/30_encoding.md R67; ADDR_W = LEN_W = 32, log 25). -/
abbrev Field32 := BitVec 32

/-- A pin identifier (PIN_W = 8, log 25). -/
abbrev Pin := BitVec 8

end Sys2Proof
end

