-- ==== Sys2Proof/Config.lean ====
section
/-! DEFINITION. The constants of spec/00_scope.md R4 and R5, the default of the OPEN parameter
MAX_XFER_LEN, and the free values (spec/93_implementation_defined.md, treatment "any value"; log 12). -/

namespace Sys2Proof.Config

/-- ADDR_SPACE_BYTES, 2^19 (R4). -/
@[simp] def addrSpaceBytes : Nat := 524288

/-- ADDR_MAX (R4). -/
@[simp] def addrMax : Nat := 0x7FFFF

/-- ADDR_MASK as a request address (R4). -/
@[simp] def addrMask : Field32 := 0x7FFFF#32

/-- HDR_LEN: the opcode and the three address bytes (R4). -/
@[simp] def hdrLen : Nat := 4

/-- OPC_WREN, Write-Enable (R4, R62). -/
@[simp] def opcWren : Byte := 0x06#8
/-- OPC_WRDI, Write-Disable. -/
@[simp] def opcWrdi : Byte := 0x04#8
/-- OPC_RDSR, Read-Status-Register. -/
@[simp] def opcRdsr : Byte := 0x05#8
/-- OPC_WRSR, Write-Status-Register. -/
@[simp] def opcWrsr : Byte := 0x01#8
/-- OPC_READ, Read-Data. -/
@[simp] def opcRead : Byte := 0x03#8
/-- OPC_WRITE, Write-Data. -/
@[simp] def opcWrite : Byte := 0x02#8
/-- OPC_SLEEP. -/
@[simp] def opcSleep : Byte := 0xB9#8
/-- OPC_WAKE. -/
@[simp] def opcWake : Byte := 0xAB#8

/-- DUMMY_BYTE: what the framer sends while it only receives (R5; the spec's decision D9). -/
@[simp] def dummyByte : Byte := 0x00#8

/-- SR_WEL (R4, R17). -/
@[simp] def srWel : Byte := 0x02#8
/-- SR_BP0. -/
@[simp] def srBp0 : Byte := 0x04#8
/-- SR_BP1. -/
@[simp] def srBp1 : Byte := 0x08#8
/-- SR_WPEN. -/
@[simp] def srWpen : Byte := 0x80#8
/-- The bits of the status register that are not reserved: the complement of 0x71 (R17, R40). -/
@[simp] def srDefined : Byte := 0x8E#8
/-- The bits a Write-Status-Register frame writes: WPEN, BP1, BP0 (R45). -/
@[simp] def srWritable : Byte := 0x8C#8

/-- T_DP_MIN in microseconds (R4). -/
@[simp] def tDpMin : Nat := 100
/-- T_RDP_MIN in microseconds (R4). -/
@[simp] def tRdpMin : Nat := 400
/-- T_WC_MIN in nanoseconds (R4): documented, waited for nowhere (R164, R200). -/
@[simp] def tWcMin : Nat := 250

/-- The default of the OPEN parameter MAX_XFER_LEN (R5, decision D7). -/
@[simp] def defaultMaxXferLen : Nat := 524288

/-! Free values. Nothing is known of them; each use takes a fresh number from `State.draws` (log 12). -/

/-- A free bit. -/
opaque freeBit : Nat → Bool
/-- A free byte. -/
opaque freeByte : Nat → Byte
/-- A free byte sequence, of any length. -/
opaque freeBytes : Nat → List Byte
/-- Free memory contents, as writes to be performed on an empty array. -/
opaque freeCells : Nat → List (Nat × Byte)

end Sys2Proof.Config
end

