-- ==== Sys2Proof/Syntax.lean ====
section
/-! DEFINITION. The instructions: one constructor per row of spec/opcode_table.json, the 8 SPI command
frames (spec/30_encoding.md R62) and the 12 host operations (R66) with the request fields each uses (R67). -/

namespace Sys2Proof

/-- The 20 instructions. `h` is `h_present`, `buf` is `buf_present`. A command frame as an instruction of
its own is the framer's `CmdXXX` procedure run once (log 7). -/
inductive Instr where
  /-- WREN, Write-Enable frame (R84). -/
  | cmdWren
  /-- WRDI, Write-Disable frame (R85). -/
  | cmdWrdi
  /-- RDSR, Read-Status-Register frame (R86). -/
  | cmdRdsr
  /-- WRSR, Write-Status-Register frame with status value `s` (R87). -/
  | cmdWrsr (s : Byte)
  /-- READ, Read-Data frame for `n` bytes at `a` (R88). -/
  | cmdRead (a : Addr) (n : Nat)
  /-- WRITE, Write-Data frame with payload `d` at `a` (R89). -/
  | cmdWrite (a : Addr) (d : List Byte)
  /-- SLEEP frame (R90). -/
  | cmdSleep
  /-- WAKE frame (R91). -/
  | cmdWake
  /-- `init(gpio, spi, cs_pin)` (R100). -/
  | init (h gpio spi : Bool) (pin : Pin)
  /-- `write_enable()` (R101). -/
  | writeEnable (h : Bool)
  /-- `write_disable()` (R102). -/
  | writeDisable (h : Bool)
  /-- `read(addr, buffer, len)` (R110). -/
  | read (h buf : Bool) (addr len : Field32)
  /-- `write(addr, data, len)` (R111). -/
  | write (h buf : Bool) (addr len : Field32) (data : List Byte)
  /-- `sleep()` (R120). -/
  | sleep (h : Bool)
  /-- `wake()` (R121). -/
  | wake (h : Bool)
  /-- `read_status_register(&status)` (R130). -/
  | readStatusRegister (h buf : Bool)
  /-- `write_status_register(status)` (R131). -/
  | writeStatusRegister (h : Bool) (sr : Byte)
  /-- `is_write_enabled()` (R132). -/
  | isWriteEnabled (h : Bool)
  /-- `is_write_protected()` (R133). -/
  | isWriteProtected (h : Bool)
  /-- `is_block_protected(block_number)` (R134). -/
  | isBlockProtected (h : Bool) (block : Byte)
  deriving DecidableEq, Repr

end Sys2Proof
end

