-- ==== Sys2Proof/WellFormed.lean ====
section
/-! DEFINITION. Which terms of `Instr` are instructions of the hardware. -/

namespace Sys2Proof

/-- A frame's payload of `n` bytes at `a` has at least one byte and does not run past the end of the
array (spec/30_encoding.md R60, spec/40_framing.md R88, spec/20_memory.md R40). -/
def payloadFits (a : Addr) (n : Nat) : Bool :=
  decide (1 ≤ n) && decide (a.toNat + n ≤ Config.addrSpaceBytes)

/-- Well-formed instructions: the payload of a READ or WRITE frame fits, and a `write` request carries
`len` bytes of data, none when its buffer is absent (spec/30_encoding.md R67; log 31). -/
def Instr.wellFormed : Instr → Bool
  | .cmdWren => true
  | .cmdWrdi => true
  | .cmdRdsr => true
  | .cmdWrsr _ => true
  | .cmdRead a n => payloadFits a n
  | .cmdWrite a d => payloadFits a d.length
  | .cmdSleep => true
  | .cmdWake => true
  | .init _ _ _ _ => true
  | .writeEnable _ => true
  | .writeDisable _ => true
  | .read _ _ _ _ => true
  | .write _ buf _ len data => data.length == if buf then len.toNat else 0
  | .sleep _ => true
  | .wake _ => true
  | .readStatusRegister _ _ => true
  | .writeStatusRegister _ _ => true
  | .isWriteEnabled _ => true
  | .isWriteProtected _ => true
  | .isBlockProtected _ _ => true

end Sys2Proof
end

