-- ==== Sys2Proof/Decode.lean ====
section
/-! DEFINITION. Decoding and encoding. A frame is the byte sequence of spec/30_encoding.md R60, R61. A host
request is laid out as bytes by the model (the spec fixes the fields and their widths, R67, and the select
codes, R66, but no places): byte 0 holds `op` in bits 3:0, `h_present` in bit 4, `gpio_present` in bit 5,
`spi_present` in bit 6, `buf_present` in bit 7; the operands the operation uses follow, most significant byte
first (DESIGN CHOICE, log 6). -/

namespace Sys2Proof

/-- Where an instruction stands: at the host port as a request, or as a command frame. -/
inductive Space where
  | host
  | spi
  deriving DecidableEq, Repr

/-- Why the decoder rejects a byte sequence. -/
inductive Reject where
  /-- No byte at all. -/
  | empty
  /-- The first byte of a frame is none of the 8 opcodes (R65). -/
  | unknownOpcode (b : Byte)
  /-- The length of a frame does not fit its opcode (R70, R49 (c)). -/
  | badLength
  /-- Bits 7:3 of the first address byte are not zero (R61). -/
  | addressBits
  /-- The payload of a frame runs past the end of the array (R40). -/
  | pastEnd
  /-- A request whose select code is reserved, 0xC to 0xF (R69). -/
  | reservedOp (op : BitVec 4)
  /-- A request record with missing operand bytes. -/
  | truncated
  deriving DecidableEq, Repr

/-- Four bytes, most significant first, as a request field. -/
def field32 (b3 b2 b1 b0 : Byte) : Field32 :=
  (b3.setWidth 32 <<< 24) ||| (b2.setWidth 32 <<< 16) ||| (b1.setWidth 32 <<< 8) ||| b0.setWidth 32

/-- A request field as four bytes, most significant first. -/
def bytes32 (w : Field32) : List Byte :=
  [w.extractLsb' 24 8, w.extractLsb' 16 8, w.extractLsb' 8 8, w.extractLsb' 0 8]

/-- The three address bytes A2, A1, A0 of a masked address (spec/30_encoding.md R63, spec/20_memory.md R33). -/
def addrBytes (a : Addr) : List Byte :=
  let a24 : BitVec 24 := a.setWidth 24
  [a24.extractLsb' 16 8, a24.extractLsb' 8 8, a24.extractLsb' 0 8]

/-- The address three address bytes stand for: `((a2 << 16) | (a1 << 8) | a0) & 0x7FFFF` (spec/20_memory.md R44). -/
def addrOf (a2 a1 a0 : Byte) : Addr :=
  ((a2.setWidth 24 <<< 16) ||| (a1.setWidth 24 <<< 8) ||| a0.setWidth 24).setWidth 19

/-- Decode a command frame, its bytes given whole (spec/30_encoding.md R61, R62, R70). The payload bytes of
READ and the dummy of RDSR are not part of the match. -/
def decodeFrame : List Byte → Except Reject Instr
  | [] => .error .empty
  | opc :: rest =>
    if opc = Config.opcWren then if rest = [] then .ok .cmdWren else .error .badLength
    else if opc = Config.opcWrdi then if rest = [] then .ok .cmdWrdi else .error .badLength
    else if opc = Config.opcSleep then if rest = [] then .ok .cmdSleep else .error .badLength
    else if opc = Config.opcWake then if rest = [] then .ok .cmdWake else .error .badLength
    else if opc = Config.opcRdsr then
      match rest with
      | [_] => .ok .cmdRdsr
      | _ => .error .badLength
    else if opc = Config.opcWrsr then
      match rest with
      | [s] => .ok (.cmdWrsr s)
      | _ => .error .badLength
    else if opc = Config.opcRead then
      match rest with
      | a2 :: a1 :: a0 :: p =>
        if a2 &&& 0xF8#8 ≠ 0#8 then .error .addressBits
        else if p = [] then .error .badLength
        else if payloadFits (addrOf a2 a1 a0) p.length then .ok (.cmdRead (addrOf a2 a1 a0) p.length)
        else .error .pastEnd
      | _ => .error .badLength
    else if opc = Config.opcWrite then
      match rest with
      | a2 :: a1 :: a0 :: d =>
        if a2 &&& 0xF8#8 ≠ 0#8 then .error .addressBits
        else if d = [] then .error .badLength
        else if payloadFits (addrOf a2 a1 a0) d.length then .ok (.cmdWrite (addrOf a2 a1 a0) d)
        else .error .pastEnd
      | _ => .error .badLength
    else .error (.unknownOpcode opc)

/-- Decode a request record at the front of a byte sequence, with the bytes after it (spec/30_encoding.md R66,
R67, R69). Presence bits an operation does not use are ignored. -/
def decodeRequest : List Byte → Except Reject (Instr × List Byte)
  | [] => .error .empty
  | b :: rest =>
    let op : BitVec 4 := b.extractLsb' 0 4
    let h := b.getLsbD 4
    let buf := b.getLsbD 7
    if op = 0x0#4 then
      match rest with
      | pin :: r => .ok (.init h (b.getLsbD 5) (b.getLsbD 6) pin, r)
      | _ => .error .truncated
    else if op = 0x1#4 then .ok (.writeEnable h, rest)
    else if op = 0x2#4 then .ok (.writeDisable h, rest)
    else if op = 0x3#4 then
      match rest with
      | a3 :: a2 :: a1 :: a0 :: n3 :: n2 :: n1 :: n0 :: r =>
        .ok (.read h buf (field32 a3 a2 a1 a0) (field32 n3 n2 n1 n0), r)
      | _ => .error .truncated
    else if op = 0x4#4 then
      match rest with
      | a3 :: a2 :: a1 :: a0 :: n3 :: n2 :: n1 :: n0 :: r =>
        let n := if buf then (field32 n3 n2 n1 n0).toNat else 0
        if r.length < n then .error .truncated
        else .ok (.write h buf (field32 a3 a2 a1 a0) (field32 n3 n2 n1 n0) (r.take n), r.drop n)
      | _ => .error .truncated
    else if op = 0x5#4 then .ok (.sleep h, rest)
    else if op = 0x6#4 then .ok (.wake h, rest)
    else if op = 0x7#4 then .ok (.readStatusRegister h buf, rest)
    else if op = 0x8#4 then
      match rest with
      | s :: r => .ok (.writeStatusRegister h s, r)
      | _ => .error .truncated
    else if op = 0x9#4 then .ok (.isWriteEnabled h, rest)
    else if op = 0xA#4 then .ok (.isWriteProtected h, rest)
    else if op = 0xB#4 then
      match rest with
      | n :: r => .ok (.isBlockProtected h n, r)
      | _ => .error .truncated
    else .error (.reservedOp op)

/-- The decoder: a request record at the host port (bytes after it are ignored), or a whole command frame. -/
def decode : Space → List Byte → Except Reject Instr
  | .host, bs => (decodeRequest bs).map Prod.fst
  | .spi, bs => decodeFrame bs

/-- Where an instruction is presented. -/
def Instr.space : Instr → Space
  | .cmdWren => .spi
  | .cmdWrdi => .spi
  | .cmdRdsr => .spi
  | .cmdWrsr _ => .spi
  | .cmdRead _ _ => .spi
  | .cmdWrite _ _ => .spi
  | .cmdSleep => .spi
  | .cmdWake => .spi
  | .init _ _ _ _ => .host
  | .writeEnable _ => .host
  | .writeDisable _ => .host
  | .read _ _ _ _ => .host
  | .write _ _ _ _ _ => .host
  | .sleep _ => .host
  | .wake _ => .host
  | .readStatusRegister _ _ => .host
  | .writeStatusRegister _ _ => .host
  | .isWriteEnabled _ => .host
  | .isWriteProtected _ => .host
  | .isBlockProtected _ _ => .host

/-- Byte 0 of a request: select code and presence bits (log 6). -/
def requestByte (op : BitVec 4) (h gpio spi buf : Bool) : Byte :=
  ((BitVec.ofBool buf).setWidth 8 <<< 7) ||| ((BitVec.ofBool spi).setWidth 8 <<< 6) |||
    ((BitVec.ofBool gpio).setWidth 8 <<< 5) ||| ((BitVec.ofBool h).setWidth 8 <<< 4) ||| op.setWidth 8

/-- The encoder: the bytes of a frame (spec/30_encoding.md R61) or of a request record (log 6). -/
def encode : Instr → List Byte
  | .cmdWren => [Config.opcWren]
  | .cmdWrdi => [Config.opcWrdi]
  | .cmdRdsr => [Config.opcRdsr, Config.dummyByte]
  | .cmdWrsr s => [Config.opcWrsr, s]
  | .cmdRead a n => Config.opcRead :: addrBytes a ++ List.replicate n Config.dummyByte
  | .cmdWrite a d => Config.opcWrite :: addrBytes a ++ d
  | .cmdSleep => [Config.opcSleep]
  | .cmdWake => [Config.opcWake]
  | .init h g s pin => [requestByte 0x0#4 h g s false, pin]
  | .writeEnable h => [requestByte 0x1#4 h false false false]
  | .writeDisable h => [requestByte 0x2#4 h false false false]
  | .read h buf addr len => requestByte 0x3#4 h false false buf :: (bytes32 addr ++ bytes32 len)
  | .write h buf addr len d => requestByte 0x4#4 h false false buf :: (bytes32 addr ++ bytes32 len ++ d)
  | .sleep h => [requestByte 0x5#4 h false false false]
  | .wake h => [requestByte 0x6#4 h false false false]
  | .readStatusRegister h buf => [requestByte 0x7#4 h false false buf]
  | .writeStatusRegister h s => [requestByte 0x8#4 h false false false, s]
  | .isWriteEnabled h => [requestByte 0x9#4 h false false false]
  | .isWriteProtected h => [requestByte 0xA#4 h false false false]
  | .isBlockProtected h n => [requestByte 0xB#4 h false false false, n]

/-! The words of spec/opcode_table.json (log 8). The table writes a frame with its first byte as the MOST
significant bits (its notes on RDSR, READ and WRITE), and a host operation as the 4 bits of its select code. -/

/-- The `k` low bytes of `w`, most significant first. -/
def bytesOfNat (w : Nat) : Nat → List Byte
  | 0 => []
  | k + 1 => BitVec.ofNat 8 (w >>> (8 * k)) :: bytesOfNat w k

/-- Whether a table word is a command frame: more than 8 bits, or a byte that is one of the four one-byte
opcodes. The bytes 0x06 and 0x04 are then the frames WREN and WRDI, not the select codes of `wake` and `write`
(log 8); those codes read as host operations when given in fewer than 8 bits. -/
def tableIsFrame (nbits w : Nat) : Bool :=
  decide (8 < nbits) || (decide (nbits = 8) && (w == 0x06 || w == 0x04 || w == 0xB9 || w == 0xAB))

/-- A table word as bytes at one of the two ports, the bits above it zero: 8 zero operand bytes after a select
code, one zero payload byte after the header of READ or WRITE. -/
def tableBytes (nbits w : Nat) : Space × List Byte :=
  let bs := bytesOfNat w ((nbits + 7) / 8)
  if tableIsFrame nbits w then (.spi, if nbits = 32 then bs ++ [0#8] else bs)
  else (.host, bs ++ List.replicate 8 0#8)

/-- The instruction the decoder reads from a word of the opcode table. -/
def decodeTableWord (nbits w : Nat) : Option Instr :=
  (decode (tableBytes nbits w).1 (tableBytes nbits w).2).toOption

end Sys2Proof
end

