-- ==== Sys2Proof/Machine/State.lean ====
section
/-! DEFINITION. The state of the machine as plain data: the framer's handle (spec/10_state.md R10), what it
holds while an operation runs (R13, R14), the response (spec/30_encoding.md R68), the reference chip and the
chip-select wire (R20, spec/20_memory.md R40), the OPEN parameters (spec/00_scope.md R5), the outside world as
inputs the step reads (R6), and the model's own record of the run (R7, log 12, 22, 24). -/

namespace Sys2Proof.Machine

/-- A logic level of a pin write (spec/60_exceptions.md R165). -/
inductive Level where
  | low
  | high
  deriving DecidableEq, Repr

/-- What is known of the chip-select wire (spec/10_state.md R20: LOW, HIGH, or unknown; log 26). -/
inductive CsLevel where
  | low
  | high
  | unknown
  deriving DecidableEq, Repr

/-- The chip's power mode (spec/20_memory.md R40). -/
inductive Mode where
  | awake
  | asleep
  deriving DecidableEq, Repr

/-- The response status (spec/60_exceptions.md R150). Code 3 is never produced, so it has no constructor. -/
inductive Status where
  | ok
  | invalidArgument
  | capabilityFailure
  deriving DecidableEq, Repr

/-- The response record (spec/30_encoding.md R68). -/
structure Response where
  status : Status
  value  : Bool
  srOut  : Byte
  data   : List Byte
  deriving DecidableEq, Repr

/-- The event alphabet (spec/00_scope.md R7). A `rsp` event shows the result fields the response names and no
unspecified one. -/
inductive Event where
  /-- REQ(op, args). -/
  | req (i : Instr)
  /-- A request with a reserved select code (R69). -/
  | reqReserved (op : BitVec 4)
  /-- G(pin, level) -> ok. -/
  | pin (p : Pin) (l : Level) (ok : Bool)
  /-- X(tx, wantRx) -> ok [, rx]; `rx` is there when it was wanted, whatever `ok` is (R9). -/
  | xfer (tx : List Byte) (wantRx ok : Bool) (rx : Option (List Byte))
  /-- W(t), `us` microseconds at least. -/
  | wait (us : Nat)
  /-- RSP(status, value, named results). -/
  | rsp (status : Status) (value : Bool) (sr : Option Byte) (data : Option (List Byte))
  deriving DecidableEq, Repr

/-- The device handle, the framer's only register file (spec/10_state.md R10). -/
structure Handle where
  gpioBound : Bool
  spiBound  : Bool
  csPin     : Pin
  deriving DecidableEq, Repr

/-- What the framer holds while an operation is in flight (spec/10_state.md R13). -/
structure Work where
  rq    : Option Instr
  a     : Addr
  txbuf : List Byte
  rxbuf : List Byte
  fail  : Bool
  dly   : Nat
  deriving DecidableEq, Repr

/-- The operation in flight: a host operation, or a command frame run on its own (log 7). -/
inductive Op where
  | cmdWren | cmdWrdi | cmdRdsr | cmdWrsr | cmdRead | cmdWrite | cmdSleep | cmdWake
  | init | writeEnable | writeDisable | read | write | sleep | wake
  | readStatusRegister | writeStatusRegister | isWriteEnabled | isWriteProtected | isBlockProtected
  deriving DecidableEq, Repr

/-- The steps of the sequencer (spec/10_state.md R14). -/
inductive Step where
  | validate | csHigh0 | csLow | xfer0 | xfer1 | csHigh | wait | respond
  deriving DecidableEq, Repr

/-- The sequencer position SEQ (spec/10_state.md R14). -/
inductive Seq where
  | idle
  | busy (op : Op) (frame : Fin 3) (step : Step)
  deriving DecidableEq, Repr

/-- The frame the chip has seen so far: the bytes since it was selected, and whether a capability call of the
frame failed, so that the chip may have seen any part of it (spec/20_memory.md R49 (d); log 14). -/
structure Pending where
  bytes : List Byte
  cut   : Bool
  /-- The deselect of the frame failed: what the frame does has been drawn once, and a later pin write HIGH draws it
  again (log 14). -/
  drawn : Bool
  deriving DecidableEq, Repr

/-- Memory as (address, byte) pairs, addresses rising, no entry equal to the unlisted byte (log 11). -/
abbrev Memory := List Host.Cell

/-- The reference chip `E_ref` and the chip-select wire (spec/20_memory.md R40, spec/10_state.md R20). -/
structure Chip where
  mem       : Memory
  sr        : Byte
  mode      : Mode
  /-- Microseconds of the wake-recovery delay still to pass (R48, R49 (a); log 17). -/
  recovery  : Nat
  /-- AFTER_READ: the last frame was a READ frame (spec/10_state.md R20). -/
  afterRead : Bool
  csLevel   : CsLevel
  pending   : Option Pending
  /-- A `sleep` (or a SLEEP frame of its own) has answered OK and no `wake` has since: the host may issue nothing but `wake`
  (spec/70_reset_and_hazards.md R191, spec/93_implementation_defined.md U3; log 22). -/
  mustWake  : Bool
  /-- The chip was used outside the meaning R49 gives it: array, SR, MODE and answers are draws from then on. What the
  frames and waits themselves say, AFTER_READ and the wake delay, is still followed, for the marks (log 16). -/
  lost      : Bool
  deriving DecidableEq, Repr

/-- One range of the OPEN parameter BLOCK_MAP: addresses `lo` to `hi` are protected at (BP1, BP0) (R47). -/
structure Block where
  bp1 : Bool
  bp0 : Bool
  lo  : Nat
  hi  : Nat
  deriving DecidableEq, Repr

/-- The OPEN parameters (spec/00_scope.md R5; log 10, log 27). No step changes them. -/
structure Params where
  maxXferLen : Nat
  lockWpen0  : Bool
  lockWpen1  : Bool
  blockMap   : List Block
  tickNs     : Nat
  deriving DecidableEq, Repr

/-- What the environment does at the framer's next call, wait, or step boundary (spec/00_scope.md R6; log 2). -/
inductive Answer where
  /-- A call answers with this success bit; `rx` takes the place of the first bytes the reference chip would
  answer. A wait ends. -/
  | reply (ok : Bool) (rx : List Byte)
  /-- The call is never answered, the wait never ends (spec/60_exceptions.md R154). -/
  | silent
  /-- A tick of the timebase passes, the call or wait still open: the delay counter of a wait goes down by one, and
  the wait ends when it reaches zero (spec/60_exceptions.md R163; log 20). -/
  | tick
  /-- The reset event strikes (spec/70_reset_and_hazards.md R180, R183; log 4). -/
  | reset
  deriving DecidableEq, Repr

/-- What the host does next (log 9). -/
inductive HostAct where
  /-- Offer a request record, as bytes. -/
  | request (bytes : List Byte)
  /-- Have one command frame run on its own, as bytes (log 7). -/
  | frame (bytes : List Byte)
  /-- Let time pass, in microseconds. -/
  | pause (us : Nat)
  deriving DecidableEq, Repr

/-- Which preconditions of the host the run has broken (spec/93_implementation_defined.md U3, U4, U10, U17; log 22). -/
structure Audit where
  sleepRule  : Bool
  readRule   : Bool
  frameRule  : Bool
  initRule   : Bool
  /-- The last `init` answered CapabilityFailure (U10). -/
  initFailed : Bool
  /-- The last operation that ran was a `wake` that answered CapabilityFailure: the host may repeat it at once
  (spec/92_eei_decisions.md D12; log 22). -/
  wakeFailed : Bool
  /-- A pin write of the operation in flight answered failure (spec/70_reset_and_hazards.md R193; log 26). -/
  pinFailed  : Bool
  deriving DecidableEq, Repr

/-- The state. -/
structure State where
  handle   : Handle
  work     : Work
  seq      : Seq
  response : Option Response
  chip     : Chip
  /-- The GPIO space: one logic level for each of the 2^PIN_W pin identifiers (spec/10_state.md R19; log 23). -/
  pins     : Vector CsLevel 256
  params   : Params
  host     : List HostAct
  env      : List Answer
  draws    : Nat
  trace    : List Event
  audit    : Audit
  deriving DecidableEq, Repr

/-- Faults: none. The spec's failures are responses (spec/60_exceptions.md R150), and a framer whose call is
never answered is a state (R154); nothing raises a fault (log 28). -/
inductive Fault where
  deriving DecidableEq, Repr

/-- Refusals. -/
inductive Refusal where
  /-- Raised by `exec` for an instruction without a meaning; no arm of this model does. Safe. -/
  | notModelled (mnemonic : String)
  /-- Raised by `step` for bytes at a port that are no request record and no command frame the framer could send
  (spec/20_memory.md R49 (c), spec/93_implementation_defined.md U17). Safe. -/
  | undecodable (r : Reject)
  deriving DecidableEq, Repr

/-- Right after reset (spec/70_reset_and_hazards.md R181, spec/10_state.md R21). What the spec leaves open there
is DESIGN CHOICE of log 5 (CS_PIN, the chip, the pins), log 10 (parameters), log 21 (dead items). -/
def State.reset : State where
  handle   := { gpioBound := false, spiBound := false, csPin := 0#8 }
  work     := { rq := none, a := 0#19, txbuf := [], rxbuf := [], fail := false, dly := 0 }
  seq      := .idle
  response := none
  chip     := { mem := [], sr := 0#8, mode := .awake, recovery := 0, afterRead := false,
                csLevel := .unknown, pending := none, mustWake := false, lost := false }
  pins     := Vector.replicate 256 .unknown
  params   := { maxXferLen := Config.defaultMaxXferLen, lockWpen0 := false, lockWpen1 := false,
                blockMap := [], tickNs := 1 }
  host     := []
  env      := []
  draws    := 0
  trace    := []
  audit    := { sleepRule := false, readRule := false, frameRule := false, initRule := false,
                initFailed := false, wakeFailed := false, pinFailed := false }

end Sys2Proof.Machine
end

