-- ==== Sys2Proof/Machine/Flags.lean ====
section
/-! DEFINITION. The status register's bits (spec/10_state.md R17), the tests of the derived queries
(spec/44_status_ops.md R135) and the two OPEN predicates that read them (spec/20_memory.md R45, R47). -/

namespace Sys2Proof.Machine

/-- `(sr & mask) != 0`, the test of a derived query (R135). -/
def srTest (sr mask : Byte) : Bool := sr &&& mask != 0#8

/-- WEL, bit 1 (R17). -/
def srWelBit (sr : Byte) : Bool := srTest sr Config.srWel
/-- BP0, bit 2. -/
def srBp0Bit (sr : Byte) : Bool := srTest sr Config.srBp0
/-- BP1, bit 3. -/
def srBp1Bit (sr : Byte) : Bool := srTest sr Config.srBp1
/-- WPEN, bit 7. -/
def srWpenBit (sr : Byte) : Bool := srTest sr Config.srWpen

/-- `SR.WEL <- b`. -/
def setWel (sr : Byte) (b : Bool) : Byte :=
  (sr &&& ~~~Config.srWel) ||| (if b then Config.srWel else 0#8)

/-- WPEN, BP1, BP0 take bits 7, 3, 2 of `v`, the other bits keep their value (R45). -/
def setWritable (sr v : Byte) : Byte :=
  (sr &&& ~~~Config.srWritable) ||| (v &&& Config.srWritable)

/-- A free status byte: reserved bits are always 0 (spec/20_memory.md R40). -/
def freeSr (n : Nat) : Byte := Config.freeByte n &&& Config.srDefined

/-- The OPEN predicate SR_LOCKED, as a function of WPEN (R45; log 27). -/
def srLocked (p : Params) (sr : Byte) : Bool :=
  if srWpenBit sr then p.lockWpen1 else p.lockWpen0

/-- The fields of the status register after a Write-Status-Register frame, WEL not yet cleared (R45). -/
def srAfterWrsr (p : Params) (sr v : Byte) : Byte :=
  if srWelBit sr && !srLocked p sr then setWritable sr v else sr

/-- `Protected(SR, x)`, that is `BLOCK_MAP(BP1, BP0, x)`, false when both bits are 0 (spec/20_memory.md R47). -/
def isProtected (p : Params) (sr : Byte) (x : Nat) : Bool :=
  (srBp1Bit sr || srBp0Bit sr) &&
    p.blockMap.any fun r =>
      r.bp1 == srBp1Bit sr && r.bp0 == srBp0Bit sr && decide (r.lo ≤ x) && decide (x ≤ r.hi)

end Sys2Proof.Machine
end

