-- ==== Sys2Proof/Machine/Memory.lean ====
section
/-! DEFINITION. The chip's array (spec/20_memory.md R30, R40) as a sorted list of (address, byte) pairs. -/

namespace Sys2Proof.Machine

/-- What an address that is not listed reads as. DESIGN CHOICE (log 11): the spec leaves the array's power-up
contents open (SR_POWERUP). -/
def Memory.unlisted : Byte := 0x00#8

/-- The byte at an address. -/
def Memory.read : Memory → Nat → Byte
  | [], _ => Memory.unlisted
  | (k, b) :: m, a => if k = a then b else Memory.read m a

/-- Store one byte; storing the unlisted byte removes the entry, so that equal arrays are equal lists. -/
def Memory.write : Memory → Nat → Byte → Memory
  | [], a, v => if v = Memory.unlisted then [] else [(a, v)]
  | (k, b) :: m, a, v =>
    if a < k then (if v = Memory.unlisted then (k, b) :: m else (a, v) :: (k, b) :: m)
    else if k = a then (if v = Memory.unlisted then m else (a, v) :: m)
    else (k, b) :: Memory.write m a v

/-- The canonical form: addresses strictly rising, inside the array, no entry equal to the unlisted byte. -/
abbrev Memory.wf (m : Memory) : Prop :=
  List.Pairwise (fun x y => x.1 < y.1) m ∧
    ∀ c ∈ m, c.1 < Config.addrSpaceBytes ∧ c.2 ≠ Memory.unlisted

/-- `MemRead(a, n)`: lowest address first (spec/20_memory.md R40, R34). -/
def Memory.readN (m : Memory) (a : Nat) : Nat → List Byte
  | 0 => []
  | n + 1 => Memory.read m a :: Memory.readN m (a + 1) n

/-- `MemWrite(a, n, v)` on the addresses `take` selects; payload byte `i` goes to address `a + i`
(spec/20_memory.md R40, R34, R46). -/
def Memory.writeN (take : Nat → Bool) (m : Memory) (a : Nat) : List Byte → Memory
  | [] => m
  | v :: vs => Memory.writeN take (if take a then Memory.write m a v else m) (a + 1) vs

/-- An array made by storing each of the given bytes, addresses taken modulo the size of the array. -/
def Memory.ofCells : List Host.Cell → Memory
  | [] => []
  | (k, b) :: cs => Memory.write (Memory.ofCells cs) (k % Config.addrSpaceBytes) b

end Sys2Proof.Machine
end

