-- ==== Sys2Proof/Machine/Operands.lean ====
section
/-! DEFINITION. The operands of operations and frames: the checks (spec/40_framing.md R94, spec/42_data_ops.md
R112, spec/20_memory.md R31), the mask (R32), the block mask (spec/30_encoding.md R64), and the eight commands
with the transfers of their frames (spec/40_framing.md R84 to R91). -/

namespace Sys2Proof.Machine

/-- `RangeOK(addr, len)`, on unbounded naturals, before the mask (spec/20_memory.md R31). -/
def rangeOK (maxXferLen : Nat) (addr len : Field32) : Bool :=
  decide (1 ≤ len.toNat) && decide (len.toNat ≤ maxXferLen) && decide (addr.toNat ≤ Config.addrMax) &&
    decide (addr.toNat + len.toNat - 1 ≤ Config.addrMax)

/-- `A = addr & ADDR_MASK` (spec/20_memory.md R32). -/
def maskAddr (addr : Field32) : Addr := (addr &&& Config.addrMask).setWidth 19

/-- The test mask of `is_block_protected`: `0x04 << block_number` (spec/30_encoding.md R64). -/
def blockMask (block : Byte) : Byte := Config.srBp0 <<< block.toNat

/-- The status as the two bits of the response record (spec/30_encoding.md R68, spec/60_exceptions.md R150). -/
def Status.code : Status → BitVec 2
  | .ok => 0#2
  | .invalidArgument => 1#2
  | .capabilityFailure => 2#2

/-- The level as one bit (spec/60_exceptions.md R165). -/
def Level.code : Level → BitVec 1
  | .low => 0#1
  | .high => 1#1

/-- Both capabilities bound. -/
def Handle.bound (h : Handle) : Bool := h.gpioBound && h.spiBound

/-- `CheckHandle()` passes (spec/40_framing.md R94). -/
def checkHandle (hPresent : Bool) (s : State) : Bool := hPresent && s.handle.bound

/-- `CheckData()` passes (spec/42_data_ops.md R112). -/
def checkData (bufPresent : Bool) (addr len : Field32) (s : State) : Bool :=
  bufPresent && rangeOK s.params.maxXferLen addr len

/-- One SPI transfer of a frame (spec/40_framing.md R80). -/
structure Xfer where
  tx     : List Byte
  wantRx : Bool
  deriving DecidableEq, Repr

/-- The eight SPI commands (spec/30_encoding.md R62) with their operands. -/
inductive Command where
  | wren
  | wrdi
  | rdsr
  | wrsr (s : Byte)
  | read (a : Addr) (n : Nat)
  | write (a : Addr) (d : List Byte)
  | sleep
  | wake
  deriving DecidableEq, Repr

/-- CmdWREN (R84). -/
def cmdWREN : List Xfer := [⟨[Config.opcWren], false⟩]
/-- CmdWRDI (R85). -/
def cmdWRDI : List Xfer := [⟨[Config.opcWrdi], false⟩]
/-- CmdRDSR (R86): two one-byte transfers. -/
def cmdRDSR : List Xfer := [⟨[Config.opcRdsr], false⟩, ⟨[Config.dummyByte], true⟩]
/-- CmdWRSR(s) (R87). -/
def cmdWRSR (s : Byte) : List Xfer := [⟨[Config.opcWrsr, s], false⟩]
/-- CmdREAD(A, n) (R88). -/
def cmdREAD (a : Addr) (n : Nat) : List Xfer :=
  [⟨Config.opcRead :: addrBytes a ++ List.replicate n Config.dummyByte, true⟩]
/-- CmdWRITE(A, d) (R89). -/
def cmdWRITE (a : Addr) (d : List Byte) : List Xfer := [⟨Config.opcWrite :: addrBytes a ++ d, false⟩]
/-- CmdSLEEP (R90). -/
def cmdSLEEP : List Xfer := [⟨[Config.opcSleep], false⟩]
/-- CmdWAKE (R91). -/
def cmdWAKE : List Xfer := [⟨[Config.opcWake], false⟩]

/-- The content of a frame: what its transfers send, in order. -/
def content (xs : List Xfer) : List Byte := xs.flatMap Xfer.tx

/-- The operation an instruction is. -/
def opOf : Instr → Op
  | .cmdWren => .cmdWren
  | .cmdWrdi => .cmdWrdi
  | .cmdRdsr => .cmdRdsr
  | .cmdWrsr _ => .cmdWrsr
  | .cmdRead _ _ => .cmdRead
  | .cmdWrite _ _ => .cmdWrite
  | .cmdSleep => .cmdSleep
  | .cmdWake => .cmdWake
  | .init _ _ _ _ => .init
  | .writeEnable _ => .writeEnable
  | .writeDisable _ => .writeDisable
  | .read _ _ _ _ => .read
  | .write _ _ _ _ _ => .write
  | .sleep _ => .sleep
  | .wake _ => .wake
  | .readStatusRegister _ _ => .readStatusRegister
  | .writeStatusRegister _ _ => .writeStatusRegister
  | .isWriteEnabled _ => .isWriteEnabled
  | .isWriteProtected _ => .isWriteProtected
  | .isBlockProtected _ _ => .isBlockProtected

end Sys2Proof.Machine
end

