-- ==== Sys2Proof/Machine/Ops.lean ====
section
/-! DEFINITION. The named operations over the state: one update per field, the questions put to the environment
(spec/00_scope.md R6, R9), accepting a request (spec/70_reset_and_hazards.md R190), the response and the failure
exit (spec/60_exceptions.md R156), the residues of a failure (R157), and the reset event (R181). -/

namespace Sys2Proof.Machine

/-! One update per field. -/

def State.setHandle (s : State) (h : Handle) : State := { s with handle := h }
def State.setWork (s : State) (w : Work) : State := { s with work := w }
def State.setSeq (s : State) (q : Seq) : State := { s with seq := q }
def State.setResponse (s : State) (r : Option Response) : State := { s with response := r }
def State.setChip (s : State) (c : Chip) : State := { s with chip := c }
def State.setHost (s : State) (h : List HostAct) : State := { s with host := h }
def State.setEnv (s : State) (e : List Answer) : State := { s with env := e }
def State.setAudit (s : State) (a : Audit) : State := { s with audit := a }

/-- Use up `k` numbers of the free values (log 12). -/
def State.draw (s : State) (k : Nat) : State := { s with draws := s.draws + k }

/-- One more event on the trace (spec/00_scope.md R7). -/
def State.emit (s : State) (e : Event) : State := { s with trace := s.trace ++ [e] }

/-- `FAIL <- b`. -/
def State.setFail (s : State) (b : Bool) : State := s.setWork { s.work with fail := b }

/-- The level of a pin. -/
def State.pinLevel (s : State) (p : Pin) : CsLevel := s.pins[p.toNat]'p.isLt

/-- A pin takes a level. -/
def State.setPin (s : State) (p : Pin) (l : CsLevel) : State := { s with pins := s.pins.set p.toNat l p.isLt }

/-- What the environment does when it is asked. -/
inductive Reply where
  /-- It answers: the success bit, the bytes it forces, the state after the question. -/
  | answer (ok : Bool) (rx : List Byte) (s : State)
  /-- It does not answer. -/
  | silent
  /-- It does not answer yet, and a tick of the timebase has passed. -/
  | tick (s : State)
  /-- The reset event strikes. -/
  | reset (s : State)

/-- Ask the environment. Past the end of the script it is the well-behaved one of spec/20_memory.md R55 (log 2). -/
def State.ask (s : State) : Reply :=
  match s.env with
  | [] => .answer true [] s
  | .reply ok rx :: e => .answer ok rx (s.setEnv e)
  | .silent :: _ => .silent
  | .tick :: e => .tick (s.setEnv e)
  | .reset :: e => .reset (s.setEnv e)

/-- The named results of a response (spec/00_scope.md R9: `return OK(...)`). -/
inductive Result where
  | done
  | value (b : Bool)
  | sr (b : Byte)
  | data (d : List Byte)
  deriving DecidableEq, Repr

/-- RESPOND: fill the response record, its unspecified fields free (spec/30_encoding.md R68; log 32), and go
idle (spec/40_framing.md R92). -/
def State.respond (s : State) (st : Status) (value : Bool) (sr : Option Byte) (data : Option (List Byte)) :
    State :=
  (((s.setResponse (some
        { status := st, value := value, srOut := sr.getD (Config.freeByte s.draws),
          data := data.getD (Config.freeBytes s.draws) })).setSeq .idle).draw 1).emit (.rsp st value sr data)

/-- `return OK(...)`. -/
def State.respondOk (s : State) : Result → State
  | .done => s.respond .ok false none none
  | .value b => s.respond .ok b none none
  | .sr b => s.respond .ok false (some b) none
  | .data d => s.respond .ok false none (some d)

/-- `raise InvalidArgument` (spec/00_scope.md R9, spec/60_exceptions.md R156): nothing but the response. -/
def State.raiseInvalidArgument (s : State) : State := s.respond .invalidArgument false none none

/-- Whether a failure of the operation leaves the latch unknown (spec/93_implementation_defined.md U2). -/
def leavesLatch : Op → Bool
  | .writeEnable | .write | .writeStatusRegister => true
  | .cmdWren | .cmdWrdi | .cmdRdsr | .cmdWrsr | .cmdRead | .cmdWrite | .cmdSleep | .cmdWake
  | .init | .writeDisable | .read | .sleep | .wake | .readStatusRegister | .isWriteEnabled
  | .isWriteProtected | .isBlockProtected => false

/-- The residue of a failure on the chip that the spec states for the whole operation: WEL is free
(U2, spec/70_reset_and_hazards.md R194; log 19). -/
def State.residue (s : State) (op : Op) : State :=
  if leavesLatch op then
    (s.setChip { s.chip with sr := setWel s.chip.sr (Config.freeBit s.draws) }).draw 1
  else s

/-- `mustWake` after an operation that ran: a successful `sleep` sets it, a successful `wake` clears it (R191, U3), and
so do the two frames run on their own (log 7, log 22). -/
def mustWakeAfter (op : Op) (failed before : Bool) : Bool :=
  if failed then before
  else
    match op with
    | .sleep | .cmdSleep => true
    | .wake | .cmdWake => false
    | .cmdWren | .cmdWrdi | .cmdRdsr | .cmdWrsr | .cmdRead | .cmdWrite
    | .init | .writeEnable | .writeDisable | .read | .write | .readStatusRegister | .writeStatusRegister
    | .isWriteEnabled | .isWriteProtected | .isBlockProtected => before

/-- The model's record of how an operation that ran has ended (U3, U10, spec/92_eei_decisions.md D12; log 22). -/
def State.noteOutcome (s : State) (op : Op) (failed : Bool) : State :=
  (s.setChip { s.chip with mustWake := mustWakeAfter op failed s.chip.mustWake }).setAudit
    { s.audit with
      initFailed := if op = .init then failed else s.audit.initFailed
      wakeFailed := op == .wake && failed }

/-- After an operation in which a pin write answered failure the level of chip-select is unknown, though the
deselect attempt was made (spec/70_reset_and_hazards.md R193, spec/40_framing.md R82; log 26). -/
def State.forgetLevel (s : State) : State :=
  if s.audit.pinFailed then (s.setChip { s.chip with csLevel := .unknown }).setPin s.handle.csPin .unknown else s

/-- `raise CapabilityFailure`, the frame's deselect attempt already made (spec/60_exceptions.md R156). -/
def State.raiseCapabilityFailure (s : State) (op : Op) : State :=
  (((s.residue op).forgetLevel).respond .capabilityFailure false none none).noteOutcome op true

/-- The operations that wake the chip: the only ones the host may issue while a `wake` is owed (R191). -/
def Op.wakes : Op → Bool
  | .wake | .cmdWake => true
  | .cmdWren | .cmdWrdi | .cmdRdsr | .cmdWrsr | .cmdRead | .cmdWrite | .cmdSleep
  | .init | .writeEnable | .writeDisable | .read | .write | .sleep | .readStatusRegister | .writeStatusRegister
  | .isWriteEnabled | .isWriteProtected | .isBlockProtected => false

/-- Accept an instruction: REQ event, request latched, SEQ at VALIDATE, no response yet (spec/10_state.md R13, R14).
The run is marked when a `wake` is owed and this is another operation, whether or not it is rejected or gets as far as
a frame (R191, U3), and when a failed `init` came before (U10; log 22). VALIDATE belongs to no frame: that its frame
number is 0 is DESIGN CHOICE (log 35). -/
def State.accept (s : State) (i : Instr) : State :=
  ((((s.setWork { s.work with rq := some i }).setSeq (.busy (opOf i) 0 .validate)).setResponse none).setAudit
    { s.audit with
      sleepRule := s.audit.sleepRule || (s.chip.mustWake && !(opOf i).wakes)
      initRule := s.audit.initRule || (s.audit.initFailed && opOf i != .init), pinFailed := false }).emit (.req i)

/-- The reset event (spec/70_reset_and_hazards.md R181 to R183): the handle unbound, CS_PIN free, SEQ idle, no
pending response, no event; the chip and the pins keep their state, and a frame under way is cut short (log 4,
log 33). DESIGN CHOICE (log 22): the reset event forgets that the last `init` answered CapabilityFailure; U10 says
nothing of a reset in between, after which every operation is rejected until an `init` has bound the handle again.
DESIGN CHOICE (log 22): a `wake` owed stays owed over the reset event, also where the reset cuts the wait of that
`wake`: R195 asks the host for 400 microseconds before its first frame, U3 for a `wake` answered OK, and R184 calls
the case untreated. -/
def State.applyReset (s : State) : State :=
  (((((s.setHandle { gpioBound := false, spiBound := false, csPin := Config.freeByte s.draws }).setSeq
    .idle).setResponse none).setChip
      { s.chip with pending := s.chip.pending.map fun p => { p with cut := true } }).setAudit
        { s.audit with initFailed := false }).draw 1

end Sys2Proof.Machine
end

