-- ==== Sys2Proof/Machine/Chip.lean ====
section
/-! DEFINITION. The reference chip `E_ref` and the chip-select wire (spec/20_memory.md R40 to R49,
spec/93_implementation_defined.md U1 to U6, U17, U18). -/

namespace Sys2Proof.Machine

/-- `k` free bytes. -/
def drawBytes (n k : Nat) : List Byte := (List.range k).map fun i => Config.freeByte (n + i)

/-- The command the chip reads in a whole frame: opcode first, length fitting, address masked to 19 bits, no
burst past the end of the array (R40 to R48, R49 (c)). -/
def chipDecode : List Byte → Option Command
  | [] => none
  | opc :: rest =>
    if opc = Config.opcWren then if rest = [] then some .wren else none
    else if opc = Config.opcWrdi then if rest = [] then some .wrdi else none
    else if opc = Config.opcSleep then if rest = [] then some .sleep else none
    else if opc = Config.opcWake then if rest = [] then some .wake else none
    else if opc = Config.opcRdsr then
      match rest with
      | [_] => some .rdsr
      | _ => none
    else if opc = Config.opcWrsr then
      match rest with
      | [s] => some (.wrsr s)
      | _ => none
    else if opc = Config.opcRead then
      match rest with
      | a2 :: a1 :: a0 :: p =>
        if payloadFits (addrOf a2 a1 a0) p.length then some (.read (addrOf a2 a1 a0) p.length) else none
      | _ => none
    else if opc = Config.opcWrite then
      match rest with
      | a2 :: a1 :: a0 :: d =>
        if payloadFits (addrOf a2 a1 a0) d.length then some (.write (addrOf a2 a1 a0) d) else none
      | _ => none
    else none

/-- Asleep, or the wake delay not yet elapsed (R49 (a)). -/
def Chip.unready (c : Chip) : Bool := c.mode == .asleep || decide (0 < c.recovery)

/-- The chip's state as draws (R49). AFTER_READ and the wake delay are no draws: they say which frames and waits there
were, no answer of a lost chip depends on them, and U3 and U4 mark a lost chip's run by them too (log 16). -/
def Chip.scramble (c : Chip) (n : Nat) : Chip :=
  { c with
    mem := Memory.ofCells (Config.freeCells n)
    sr := freeSr n
    mode := if Config.freeBit n then .asleep else .awake
    lost := true }

/-- The chip is used outside the meaning it has: from now on its state and answers are draws (R49; log 16). -/
def State.loseChip (s : State) : State := (s.setChip (s.chip.scramble s.draws)).draw 1

/-- The frames the chip has no meaning for now: any frame while the wake delay lasts, and any but Wake while it
sleeps or the host owes a `wake` (R49 (a), U3). Of a lost chip nobody knows whether it sleeps. -/
def Chip.forbids (c : Chip) : Command → Bool
  | .wake => decide (0 < c.recovery)
  | .wren | .wrdi | .rdsr | .wrsr _ | .read _ _ | .write _ _ | .sleep =>
    (c.mode == .asleep && !c.lost) || decide (0 < c.recovery) || c.mustWake

/-- U3: a frame the chip has no meaning for. The run is marked, unless the frame is the Wake frame of a `wake`
repeated after a failed one, which the host may send (spec/92_eei_decisions.md D12; log 22). -/
def State.breakSleepRule (s : State) (isWake : Bool) : State :=
  (s.setAudit { s.audit with sleepRule := s.audit.sleepRule || !(isWake && s.audit.wakeFailed) }).loseChip

/-- U17: a frame the framer never sends. -/
def State.breakFrameRule (s : State) : State :=
  (s.setAudit { s.audit with frameRule := true }).loseChip

/-- U4: a status command as the very next frame after a READ frame. -/
def State.breakReadRule (s : State) : State := s.setAudit { s.audit with readRule := true }

/-- What a whole frame does to a chip that is ready for it (R41 to R48). -/
def State.frameEffect (s : State) : Command → State
  | .wren => s.setChip { s.chip with sr := setWel s.chip.sr true, afterRead := false }
  | .wrdi => s.setChip { s.chip with sr := setWel s.chip.sr false, afterRead := false }
  | .rdsr =>
    let t := if s.chip.afterRead then s.breakReadRule else s
    t.setChip { t.chip with afterRead := false }
  | .wrsr v =>
    if s.chip.afterRead then
      (s.breakReadRule.setChip { s.chip with sr := freeSr s.draws, afterRead := false }).draw 1
    else
      s.setChip { s.chip with sr := setWel (srAfterWrsr s.params s.chip.sr v) false, afterRead := false }
  | .read _ _ => s.setChip { s.chip with afterRead := true }
  | .write a d =>
    s.setChip
      { s.chip with
        mem := if srWelBit s.chip.sr then
            Memory.writeN (fun x => !isProtected s.params s.chip.sr x) s.chip.mem a.toNat d
          else s.chip.mem
        sr := setWel s.chip.sr false
        afterRead := false }
  | .sleep => s.setChip { s.chip with mode := .asleep, afterRead := false }
  | .wake =>
    (s.setChip
      { s.chip with
        mode := .awake
        recovery := if s.chip.unready || s.chip.lost then Config.tRdpMin else 0
        sr := if s.chip.unready then setWel s.chip.sr (Config.freeBit s.draws) else s.chip.sr
        afterRead := false }).draw 1

/-- What a frame in which a capability call failed may have done: each part of the state has its old value or
the value the whole frame gives it, by free bits (R49 (d), U6; log 14). A READ frame cut short counts as the READ
frame R192 speaks of, whatever the chip has seen of it (log 18). -/
def State.cutEffect (s : State) : Command → State
  | .wren | .wrdi =>
    (s.setChip
      { s.chip with
        sr := setWel s.chip.sr (Config.freeBit s.draws)
        afterRead := s.chip.afterRead && Config.freeBit (s.draws + 1) }).draw 2
  | .rdsr =>
    let t := if s.chip.afterRead then s.breakReadRule else s
    (t.setChip { t.chip with afterRead := t.chip.afterRead && Config.freeBit t.draws }).draw 1
  | .wrsr v =>
    if s.chip.afterRead then
      (s.breakReadRule.setChip
        { s.chip with sr := freeSr s.draws, afterRead := Config.freeBit (s.draws + 1) }).draw 2
    else
      (s.setChip
        { s.chip with
          sr := setWel (if Config.freeBit (s.draws + 1) then srAfterWrsr s.params s.chip.sr v else s.chip.sr)
            (Config.freeBit s.draws) }).draw 2
  | .read _ _ => s.setChip { s.chip with afterRead := true }
  | .write a d =>
    (s.setChip
      { s.chip with
        mem := if srWelBit s.chip.sr then
            Memory.writeN
              (fun x => !isProtected s.params s.chip.sr x && Config.freeBit (s.draws + 2 + (x - a.toNat)))
              s.chip.mem a.toNat d
          else s.chip.mem
        sr := setWel s.chip.sr (Config.freeBit s.draws)
        afterRead := s.chip.afterRead && Config.freeBit (s.draws + 1) }).draw (2 + d.length)
  | .sleep =>
    (s.setChip
      { s.chip with
        mode := if Config.freeBit s.draws then .asleep else s.chip.mode
        afterRead := s.chip.afterRead && Config.freeBit (s.draws + 1) }).draw 2
  | .wake =>
    (s.setChip
      { s.chip with
        mode := if Config.freeBit s.draws then .awake else s.chip.mode
        recovery := if (s.chip.unready || s.chip.lost) && Config.freeBit s.draws then Config.tRdpMin else s.chip.recovery
        sr := if s.chip.unready then setWel s.chip.sr (Config.freeBit (s.draws + 2)) else s.chip.sr
        afterRead := s.chip.afterRead && Config.freeBit (s.draws + 1) }).draw 3

/-- The chip's state stays a draw once the chip is lost (R49). -/
def State.ifLost (s : State) : State := if s.chip.lost then s.loseChip else s

/-- A frame reaches the chip. An empty selection is no frame. On a lost chip the frame breaks the host's rules all the
same, and the state it leaves is a draw (R49, U3, U4; log 16). -/
def State.takeFrame (s : State) (effect : State → Command → State) (bytes : List Byte) : State :=
  if bytes = [] then s
  else
    match chipDecode bytes with
    | none => s.breakFrameRule
    | some c => (effect (if s.chip.forbids c then s.breakSleepRule (c == .wake) else s) c).ifLost

/-- The chip at the end of a whole frame. -/
def State.wholeFrame (s : State) (bytes : List Byte) : State := s.takeFrame State.frameEffect bytes

/-- The bytes of a frame cut short, made whole: the one frame that can end between two transfers is RDSR, after its
opcode, where it changes nothing but AFTER_READ. -/
def fullFrame (bytes : List Byte) : List Byte := if bytes = [Config.opcRdsr] then content cmdRDSR else bytes

/-- The chip at a frame cut short. -/
def State.cutFrame (s : State) (bytes : List Byte) : State := s.takeFrame State.cutEffect (fullFrame bytes)

/-- A frame whose deselect failed, at the next pin write: its effect is drawn again, for it may come only now. It is
no new frame, so it breaks no rule a second time (log 14). -/
def State.redrawFrame (s : State) (bytes : List Byte) : State :=
  match chipDecode (fullFrame bytes) with
  | none => s
  | some c => (s.cutEffect c).ifLost

/-- What the chip answers during a transfer of `tx`, byte by byte (R43, R44; draws elsewhere, U11, U3, U4). -/
def chipAnswer (c : Chip) (n : Nat) (tx : List Byte) : List Byte :=
  if c.lost || c.unready || c.mustWake || c.csLevel != .low then drawBytes n tx.length
  else
    match c.pending with
    | some ⟨before, false, _⟩ =>
      if before = [Config.opcRdsr] then
        match tx with
        | [_] => [if c.afterRead then Config.freeByte n else c.sr]
        | _ => drawBytes n tx.length
      else
        match chipDecode (before ++ tx) with
        | some (.read a k) =>
          if before = [] then drawBytes n Config.hdrLen ++ Memory.readN c.mem a.toNat k
          else drawBytes n tx.length
        | _ => drawBytes n tx.length
    | _ => drawBytes n tx.length

/-- The bytes received: what the environment forces, then what the chip answers (log 13). -/
def overlay : List Byte → List Byte → List Byte
  | [], cs => cs
  | _ :: _, [] => []
  | b :: bs, _ :: cs => b :: overlay bs cs

/-- A LOW while a frame is still open (its deselect failed) either begins a frame or adds its bytes to the open one (R40
counts from a successful LOW to the next successful HIGH): nothing is known of the chip from then on (R49 (d); log 15). -/
def State.joinFrame (s : State) : State :=
  match s.chip.pending with
  | none => s
  | some p => if p.bytes = [] then s else s.loseChip

/-- The wake delay starts anew. -/
def State.restartDelay (s : State) : State := s.setChip { s.chip with recovery := Config.tRdpMin }

/-- A LOW before the wake delay has elapsed begins a frame the chip has no meaning for, whatever becomes of the frame
(R49 (a), U3), and chip-select has not stayed HIGH: the delay starts anew (R48; log 17). -/
def State.beginFrame (s : State) (frame : List Byte) : State :=
  if 0 < s.chip.recovery then (s.breakSleepRule (chipDecode frame == some .wake)).restartDelay else s

/-- A pin write LOW on the wire (R40, R55, U1; log 14). When it failed, the chip may have seen any part of the frame
the framer meant to send. -/
def State.driveLow (s : State) (ok : Bool) (frame : List Byte) : State :=
  let t := s.joinFrame.beginFrame frame
  t.setChip
    { t.chip with
      csLevel := if ok then .low else .unknown
      pending := some (if ok then ⟨[], false, false⟩ else ⟨frame, true, false⟩) }

/-- The frame under way at a pin write HIGH (R40, R51). -/
def State.endFrame (s : State) (p : Pending) (ok : Bool) : State :=
  if p.drawn then s.redrawFrame p.bytes
  else if p.cut || !ok then s.cutFrame p.bytes
  else s.wholeFrame p.bytes

/-- A pin write HIGH that fails while chip-select is HIGH and the wake delay runs: nobody knows that chip-select stayed
HIGH, so nothing is known of the chip (R48; log 17). -/
def State.doubtHigh (s : State) (ok : Bool) : State :=
  if !ok && s.chip.csLevel == .high && decide (0 < s.chip.recovery) then
    s.loseChip.restartDelay
  else s

/-- A pin write HIGH on the wire: the frame under way, if any, ends. When the write failed the frame stays open, its
effect drawn (log 14). -/
def State.driveHigh (s : State) (ok : Bool) : State :=
  let t := match s.chip.pending with
    | none => s.doubtHigh ok
    | some p => s.endFrame p ok
  t.setChip
    { t.chip with
      csLevel := if ok then .high else .unknown
      pending := if ok then none else s.chip.pending.map fun p => { p with cut := true, drawn := true } }

/-- The chip takes in the bytes of a transfer (R40). While chip-select is not LOW it may have seen any of them:
its state is free from then on (R49 (d)); the framer makes no such transfer (R81). -/
def State.chipTakes (s : State) (tx : List Byte) (ok : Bool) : State :=
  if s.chip.csLevel = .low then
    s.setChip
      { s.chip with
        pending := s.chip.pending.map fun p => { p with bytes := p.bytes ++ tx, cut := p.cut || !ok } }
  else s.breakFrameRule

/-- Time passes with chip-select where it is: the wake delay runs while it is HIGH (R48; log 17). Chip-select leaves HIGH
only by a pin write, and that starts a running delay anew (`State.beginFrame`, `State.doubtHigh`). -/
def State.elapse (s : State) (us : Nat) : State :=
  s.setChip { s.chip with recovery := if s.chip.csLevel = .high then s.chip.recovery - us else s.chip.recovery }

end Sys2Proof.Machine
end

