-- ==== Sys2Proof/Machine/Sequencer.lean ====
section
/-! DEFINITION. The chip-select sequencer: micro-programs (spec/40_framing.md R93) run step by step, every
transfer of control forward (R92), so that a frame is the procedure R80 and a later frame is skipped after a
failed one (R96). -/

namespace Sys2Proof.Machine

/-- What a step of a micro-program does. -/
inductive Act where
  /-- `init`'s pin write HIGH before its frame (R100). -/
  | csHigh0
  /-- The select of a frame; the frame's bytes are there for the chip's sake (log 14). -/
  | csLow (frame : List Byte)
  | xfer (x : Xfer)
  /-- The deselect attempt. -/
  | csHigh
  | wait (us : Nat)
  deriving DecidableEq, Repr

/-- A step of a micro-program with its place (spec/10_state.md R14). DESIGN CHOICE (log 35): a step that belongs to no
frame (`init`'s CS_HIGH0, WAIT) has frame number 0. -/
structure MStep where
  frame : Fin 3
  step  : Step
  act   : Act
  deriving DecidableEq, Repr

/-- The transfer steps of a frame: XFER0, then XFER1. -/
def xferSteps (k : Fin 3) : Step → List Xfer → List MStep
  | _, [] => []
  | st, x :: xs => ⟨k, st, .xfer x⟩ :: xferSteps k .xfer1 xs

/-- `Frame(xfers)` as a micro-program: select, transfers, deselect attempt (R80, R93). -/
def frameSteps (k : Fin 3) (xs : List Xfer) : List MStep :=
  ⟨k, .csLow, .csLow (content xs)⟩ :: (xferSteps k .xfer0 xs ++ [⟨k, .csHigh, .csHigh⟩])

/-- `Bracketed(F)`: Write-Enable, the write-type frame, Write-Disable (R96). -/
def bracketed (f : List Xfer) : List MStep :=
  frameSteps 0 cmdWREN ++ frameSteps 1 f ++ frameSteps 2 cmdWRDI

/-- `Wait(t)` after frame 0 (R9, R120, R121), with that frame's number (log 35). -/
def waitStep (us : Nat) : MStep := ⟨0, .wait, .wait us⟩

/-- The level a pin write leaves: the one written, or unknown when it failed (spec/10_state.md R20). -/
def Level.after (l : Level) (ok : Bool) : CsLevel :=
  match l, ok with
  | .low, true => .low
  | .high, true => .high
  | _, false => .unknown

/-- `GpioWrite(H.CS_PIN, level)` answered with `ok`: the event, the pin, and the chip-select wire, which every
write to H.CS_PIN drives (R9, R165, spec/10_state.md R20; log 23). -/
def State.pinWrite (s : State) (l : Level) (ok : Bool) (frame : List Byte) : State :=
  let t := ((s.setAudit { s.audit with pinFailed := s.audit.pinFailed || !ok }).setPin s.handle.csPin
    (l.after ok)).emit (.pin s.handle.csPin l ok)
  match l with
  | .low => t.driveLow ok frame
  | .high => t.driveHigh ok

/-- The bytes a transfer receives, as many as it sends: those the environment forces, then what the chip answers,
which is free when the transfer failed (R9, R166; log 13). -/
def received (s : State) (x : Xfer) (ok : Bool) (rx : List Byte) : List Byte :=
  overlay rx (if ok then chipAnswer s.chip s.draws x.tx else drawBytes s.draws x.tx.length)

/-- `SpiTransfer(tx, want_rx)` answered with `ok`, `rx` forced by the environment: the event, RXBUF when the bytes
are wanted, FAIL, and the bytes the chip takes in (R9, R80, R166). -/
def State.transfer (s : State) (x : Xfer) (ok : Bool) (rx : List Byte) : State :=
  let t := if x.wantRx then s.setWork { s.work with rxbuf := received s x ok rx } else s
  ((t.setFail (!ok)).draw x.tx.length).chipTakes x.tx ok |>.emit
    (.xfer x.tx x.wantRx ok (if x.wantRx then some (received s x ok rx) else none))

/-- The load of the delay counter: `ceil(t / TICK_NS)` (spec/60_exceptions.md R163). -/
def delayTicks (tickNs us : Nat) : Nat := (us * 1000 + tickNs - 1) / tickNs

/-- `DLY <- n`. -/
def State.setDly (s : State) (n : Nat) : State := s.setWork { s.work with dly := n }

/-- The framer at WAIT: the delay counter is loaded when it gets there, and keeps its count while it stands there. -/
def State.atWait (s : State) (op : Op) (us : Nat) : State :=
  (s.setSeq (.busy op 0 .wait)).setDly
    (if s.seq = .busy op 0 .wait then s.work.dly else delayTicks s.params.tickNs us)

/-- The wait ends. -/
def State.endWait (s : State) (us : Nat) : State := ((s.setDly 0).elapse us).emit (.wait us)

/-- What becomes of the operation at one step. -/
inductive Turn where
  /-- Go on with the next step. -/
  | next (s : State)
  /-- CapabilityFailure: to RESPOND. -/
  | abort (s : State)
  /-- No response now: the call is not answered (R154), or the reset event struck (R183). -/
  | hold (s : State)

/-- One step of a micro-program (R80, R92). A transfer after a failed call of the frame is skipped. -/
def perform (op : Op) (m : MStep) (s : State) : Turn :=
  let t := s.setSeq (.busy op m.frame m.step)
  match m.act with
  | .csHigh0 =>
    match t.ask with
    | .answer ok _ u => if ok then .next (u.pinWrite .high ok []) else .abort (u.pinWrite .high ok [])
    | .silent => .hold t
    | .tick u => .hold u
    | .reset u => .hold u.applyReset
  | .csLow frame =>
    match (t.setFail false).ask with
    | .answer ok _ u => .next ((u.pinWrite .low ok frame).setFail (!ok))
    | .silent => .hold (t.setFail false)
    | .tick u => .hold u
    | .reset u => .hold u.applyReset
  | .xfer x =>
    if s.work.fail then .next s
    else
      match (t.setWork { t.work with txbuf := x.tx }).ask with
      | .answer ok rx u => .next (u.transfer x ok rx)
      | .silent => .hold (t.setWork { t.work with txbuf := x.tx })
      | .tick u => .hold u
      | .reset u => .hold u.applyReset
  | .csHigh =>
    match t.ask with
    | .answer ok _ u =>
      if t.work.fail || !ok then .abort ((u.pinWrite .high ok []).setFail true)
      else .next (u.pinWrite .high ok [])
    | .silent => .hold t
    | .tick u => .hold u
    | .reset u => .hold u.applyReset
  | .wait us =>
    match (s.atWait op us).ask with
    | .answer _ _ u => .next (u.endWait us)
    | .silent => .hold (s.atWait op us)
    | .tick u => if u.work.dly ≤ 1 then .next (u.endWait us) else .hold (u.setDly (u.work.dly - 1))
    | .reset u => .hold u.applyReset

/-- How a micro-program ends. -/
inductive Run where
  | finished (s : State)
  | failed (s : State)
  | held (s : State)

/-- Run a micro-program (R92, R93). -/
def run (op : Op) : List MStep → State → Run
  | [], s => .finished s
  | m :: ms, s =>
    match perform op m s with
    | .next t => run op ms t
    | .abort t => .failed t
    | .hold t => .held t

/-- What an instruction does: its argument check, what it stores before its first call, its micro-program, and
the results of its response. -/
structure Plan where
  valid   : Bool
  prepare : State → State
  steps   : List MStep
  result  : State → Result

/-- From the end of the micro-program to the response (R92, spec/60_exceptions.md R156). DESIGN CHOICE (log 4): no
reset event strikes between the last answered call or ended wait and the response, nor between a failed check and
its response; R183 lets a model forbid it. -/
def conclude (op : Op) (result : State → Result) : Run → State
  | .finished s => (s.respondOk (result s)).noteOutcome op false
  | .failed s => s.raiseCapabilityFailure op
  | .held s => s

/-- From VALIDATE on: all checks come before the first capability call (R95). -/
def checkAndRun (op : Op) (p : Plan) (s : State) : State :=
  if p.valid then conclude op p.result (run op p.steps (p.prepare s)) else s.raiseInvalidArgument

/-- An instruction from REQ to its response. -/
def runPlan (i : Instr) (p : Plan) (s : State) : State := checkAndRun (opOf i) p (s.accept i)

/-- The rest of a micro-program from a sequencer position on. -/
def stepsFrom (k : Fin 3) (st : Step) (ms : List MStep) : List MStep :=
  ms.dropWhile fun m => !(m.frame == k && m.step == st)

/-- Nothing to store before the first call. -/
def noPrepare (s : State) : State := s

/-- No named result. -/
def noResult (_ : State) : Result := .done

/-- The status byte received during the dummy byte: `r.rx[0][0]` (R86). -/
def receivedSr (s : State) : Byte := s.work.rxbuf.headD Config.dummyByte

/-- The payload received: bytes 4 on (R88). -/
def receivedData (s : State) : List Byte := s.work.rxbuf.drop Config.hdrLen

/-- `A <- RQ.addr & 0x7FFFF` (spec/42_data_ops.md R110, R111). -/
def latchAddr (addr : Field32) (s : State) : State := s.setWork { s.work with a := maskAddr addr }

end Sys2Proof.Machine
end

