-- ==== Sys2Proof/Machine/DataOps.lean ====
section
/-! DEFINITION. `read` and `write` (spec/42_data_ops.md R110 to R112). -/

namespace Sys2Proof.Machine

/-- `read` (R110): one READ frame, the payload of which is the result. -/
def planRead (h buf : Bool) (addr len : Field32) (s : State) : Plan where
  valid := checkHandle h s && checkData buf addr len s
  prepare := latchAddr addr
  steps := frameSteps 0 (cmdREAD (maskAddr addr) len.toNat)
  result := fun t => .data (receivedData t)

/-- `write` (R111): the WRITE frame in its bracket. -/
def planWrite (h buf : Bool) (addr len : Field32) (data : List Byte) (s : State) : Plan where
  valid := checkHandle h s && checkData buf addr len s
  prepare := latchAddr addr
  steps := bracketed (cmdWRITE (maskAddr addr) data)
  result := noResult

/-- `read(addr, buffer, len)` (R110). -/
def execRead (h buf : Bool) (addr len : Field32) (s : State) : Host.Outcome State Fault Refusal :=
  .next (runPlan (.read h buf addr len) (planRead h buf addr len s) s)
/-- `write(addr, data, len)` (R111). -/
def execWrite (h buf : Bool) (addr len : Field32) (data : List Byte) (s : State) :
    Host.Outcome State Fault Refusal :=
  .next (runPlan (.write h buf addr len data) (planWrite h buf addr len data s) s)

end Sys2Proof.Machine
end

