-- ==== Sys2Proof/Machine/Frames.lean ====
section
/-! DEFINITION. The eight SPI command frames as instructions of their own (spec/40_framing.md R84 to R91): the
framer's frame procedure run once, the outcome put into the response record. The hardware runs a frame only
inside an operation (DESIGN CHOICE, log 7). -/

namespace Sys2Proof.Machine

/-- A command frame run on its own: it needs bound capabilities (R10: CS_PIN is never read while unbound) and a
payload the frame can have (R88, R89). -/
def planFrame (operandsOk : Bool) (xs : List Xfer) (result : State → Result) (s : State) : Plan where
  valid := s.handle.bound && operandsOk
  prepare := noPrepare
  steps := frameSteps 0 xs
  result := result

/-- The payload length is 1 to MAX_XFER_LEN and ends inside the array (R88). -/
def payloadOk (a : Addr) (n : Nat) (s : State) : Bool :=
  payloadFits a n && decide (n ≤ s.params.maxXferLen)

def planCmdWren (s : State) : Plan := planFrame true cmdWREN noResult s
def planCmdWrdi (s : State) : Plan := planFrame true cmdWRDI noResult s
def planCmdRdsr (s : State) : Plan := planFrame true cmdRDSR (fun t => .sr (receivedSr t)) s
def planCmdWrsr (v : Byte) (s : State) : Plan := planFrame true (cmdWRSR v) noResult s
def planCmdRead (a : Addr) (n : Nat) (s : State) : Plan :=
  planFrame (payloadOk a n s) (cmdREAD a n) (fun t => .data (receivedData t)) s
def planCmdWrite (a : Addr) (d : List Byte) (s : State) : Plan :=
  planFrame (payloadOk a d.length s) (cmdWRITE a d) noResult s
def planCmdSleep (s : State) : Plan := planFrame true cmdSLEEP noResult s
def planCmdWake (s : State) : Plan := planFrame true cmdWAKE noResult s

/-- WREN (R84). -/
def execCmdWren (s : State) : Host.Outcome State Fault Refusal := .next (runPlan .cmdWren (planCmdWren s) s)
/-- WRDI (R85). -/
def execCmdWrdi (s : State) : Host.Outcome State Fault Refusal := .next (runPlan .cmdWrdi (planCmdWrdi s) s)
/-- RDSR (R86). -/
def execCmdRdsr (s : State) : Host.Outcome State Fault Refusal := .next (runPlan .cmdRdsr (planCmdRdsr s) s)
/-- WRSR (R87). -/
def execCmdWrsr (v : Byte) (s : State) : Host.Outcome State Fault Refusal :=
  .next (runPlan (.cmdWrsr v) (planCmdWrsr v s) s)
/-- READ (R88). -/
def execCmdRead (a : Addr) (n : Nat) (s : State) : Host.Outcome State Fault Refusal :=
  .next (runPlan (.cmdRead a n) (planCmdRead a n s) s)
/-- WRITE (R89). -/
def execCmdWrite (a : Addr) (d : List Byte) (s : State) : Host.Outcome State Fault Refusal :=
  .next (runPlan (.cmdWrite a d) (planCmdWrite a d s) s)
/-- SLEEP (R90): the frame alone, without the wait of `sleep`. -/
def execCmdSleep (s : State) : Host.Outcome State Fault Refusal := .next (runPlan .cmdSleep (planCmdSleep s) s)
/-- WAKE (R91): the frame alone, without the wait of `wake`. -/
def execCmdWake (s : State) : Host.Outcome State Fault Refusal := .next (runPlan .cmdWake (planCmdWake s) s)

end Sys2Proof.Machine
end

