-- ==== Sys2Proof/Machine/InitWel.lean ====
section
/-! DEFINITION. `init`, `write_enable`, `write_disable` (spec/41_init_wel_ops.md R100 to R102). -/

namespace Sys2Proof.Machine

/-- The handle's three registers, written together (R100, spec/10_state.md R11). -/
def bindHandle (pin : Pin) (s : State) : State :=
  s.setHandle { gpioBound := true, spiBound := true, csPin := pin }

/-- `init` (R100): bind, drive chip-select HIGH, one Write-Disable frame. The step before the frame has frame number 0
(log 35). -/
def planInit (h gpio spi : Bool) (pin : Pin) : Plan where
  valid := h && gpio && spi
  prepare := bindHandle pin
  steps := ⟨0, .csHigh0, .csHigh0⟩ :: frameSteps 0 cmdWRDI
  result := noResult

/-- `write_enable` (R101). -/
def planWriteEnable (h : Bool) (s : State) : Plan where
  valid := checkHandle h s
  prepare := noPrepare
  steps := frameSteps 0 cmdWREN
  result := noResult

/-- `write_disable` (R102). -/
def planWriteDisable (h : Bool) (s : State) : Plan where
  valid := checkHandle h s
  prepare := noPrepare
  steps := frameSteps 0 cmdWRDI
  result := noResult

/-- `init(gpio, spi, cs_pin)` (R100). -/
def execInit (h gpio spi : Bool) (pin : Pin) (s : State) : Host.Outcome State Fault Refusal :=
  .next (runPlan (.init h gpio spi pin) (planInit h gpio spi pin) s)
/-- `write_enable()` (R101). -/
def execWriteEnable (h : Bool) (s : State) : Host.Outcome State Fault Refusal :=
  .next (runPlan (.writeEnable h) (planWriteEnable h s) s)
/-- `write_disable()` (R102). -/
def execWriteDisable (h : Bool) (s : State) : Host.Outcome State Fault Refusal :=
  .next (runPlan (.writeDisable h) (planWriteDisable h s) s)

end Sys2Proof.Machine
end

