-- ==== Sys2Proof/Machine/PowerOps.lean ====
section
/-! DEFINITION. `sleep` and `wake` (spec/43_power_ops.md R120 to R122): one frame, then the wait, after the
deselect and only when the frame succeeded. -/

namespace Sys2Proof.Machine

/-- `sleep` (R120). -/
def planSleep (h : Bool) (s : State) : Plan where
  valid := checkHandle h s
  prepare := noPrepare
  steps := frameSteps 0 cmdSLEEP ++ [waitStep Config.tDpMin]
  result := noResult

/-- `wake` (R121). -/
def planWake (h : Bool) (s : State) : Plan where
  valid := checkHandle h s
  prepare := noPrepare
  steps := frameSteps 0 cmdWAKE ++ [waitStep Config.tRdpMin]
  result := noResult

/-- `sleep()` (R120). -/
def execSleep (h : Bool) (s : State) : Host.Outcome State Fault Refusal :=
  .next (runPlan (.sleep h) (planSleep h s) s)
/-- `wake()` (R121). -/
def execWake (h : Bool) (s : State) : Host.Outcome State Fault Refusal :=
  .next (runPlan (.wake h) (planWake h s) s)

end Sys2Proof.Machine
end

