-- ==== Sys2Proof/Machine/StatusOps.lean ====
section
/-! DEFINITION. The status-register operations and the derived queries (spec/44_status_ops.md R130 to R135). -/

namespace Sys2Proof.Machine

/-- `read_status_register` (R130). -/
def planReadStatusRegister (h buf : Bool) (s : State) : Plan where
  valid := checkHandle h s && buf
  prepare := noPrepare
  steps := frameSteps 0 cmdRDSR
  result := fun t => .sr (receivedSr t)

/-- `write_status_register` (R131): the WRSR frame in its bracket, the value sent unchanged. -/
def planWriteStatusRegister (h : Bool) (v : Byte) (s : State) : Plan where
  valid := checkHandle h s
  prepare := noPrepare
  steps := bracketed (cmdWRSR v)
  result := noResult

/-- `Query(mask)` (R135), with a check of its own before it. -/
def planQuery (check h : Bool) (mask : Byte) (s : State) : Plan where
  valid := check && checkHandle h s
  prepare := noPrepare
  steps := frameSteps 0 cmdRDSR
  result := fun t => .value (srTest (receivedSr t) mask)

/-- `is_write_enabled`: WEL (R132). -/
def planIsWriteEnabled (h : Bool) (s : State) : Plan := planQuery true h Config.srWel s
/-- `is_write_protected`: WPEN (R133). -/
def planIsWriteProtected (h : Bool) (s : State) : Plan := planQuery true h Config.srWpen s
/-- `is_block_protected`: block number 0 or 1, then `0x04 << block_number` (R134). -/
def planIsBlockProtected (h : Bool) (block : Byte) (s : State) : Plan :=
  planQuery (decide (block.toNat ≤ 1)) h (blockMask block) s

/-- `read_status_register(&status)` (R130). -/
def execReadStatusRegister (h buf : Bool) (s : State) : Host.Outcome State Fault Refusal :=
  .next (runPlan (.readStatusRegister h buf) (planReadStatusRegister h buf s) s)
/-- `write_status_register(status)` (R131). -/
def execWriteStatusRegister (h : Bool) (v : Byte) (s : State) : Host.Outcome State Fault Refusal :=
  .next (runPlan (.writeStatusRegister h v) (planWriteStatusRegister h v s) s)
/-- `is_write_enabled()` (R132). -/
def execIsWriteEnabled (h : Bool) (s : State) : Host.Outcome State Fault Refusal :=
  .next (runPlan (.isWriteEnabled h) (planIsWriteEnabled h s) s)
/-- `is_write_protected()` (R133). -/
def execIsWriteProtected (h : Bool) (s : State) : Host.Outcome State Fault Refusal :=
  .next (runPlan (.isWriteProtected h) (planIsWriteProtected h s) s)
/-- `is_block_protected(block_number)` (R134). -/
def execIsBlockProtected (h : Bool) (block : Byte) (s : State) : Host.Outcome State Fault Refusal :=
  .next (runPlan (.isBlockProtected h block) (planIsBlockProtected h block s) s)

end Sys2Proof.Machine
end

