-- ==== Sys2Proof/Machine/Dispatch.lean ====
section
/-! DEFINITION. One arm per instruction. -/

namespace Sys2Proof.Machine

def exec (i : Instr) (s : State) : Host.Outcome State Fault Refusal :=
  match i with
  | .cmdWren => Sys2Proof.Machine.execCmdWren s
  | .cmdWrdi => Sys2Proof.Machine.execCmdWrdi s
  | .cmdRdsr => Sys2Proof.Machine.execCmdRdsr s
  | .cmdWrsr v => Sys2Proof.Machine.execCmdWrsr v s
  | .cmdRead a n => Sys2Proof.Machine.execCmdRead a n s
  | .cmdWrite a d => Sys2Proof.Machine.execCmdWrite a d s
  | .cmdSleep => Sys2Proof.Machine.execCmdSleep s
  | .cmdWake => Sys2Proof.Machine.execCmdWake s
  | .init h gpio spi pin => Sys2Proof.Machine.execInit h gpio spi pin s
  | .writeEnable h => Sys2Proof.Machine.execWriteEnable h s
  | .writeDisable h => Sys2Proof.Machine.execWriteDisable h s
  | .read h buf addr len => Sys2Proof.Machine.execRead h buf addr len s
  | .write h buf addr len data => Sys2Proof.Machine.execWrite h buf addr len data s
  | .sleep h => Sys2Proof.Machine.execSleep h s
  | .wake h => Sys2Proof.Machine.execWake h s
  | .readStatusRegister h buf => Sys2Proof.Machine.execReadStatusRegister h buf s
  | .writeStatusRegister h v => Sys2Proof.Machine.execWriteStatusRegister h v s
  | .isWriteEnabled h => Sys2Proof.Machine.execIsWriteEnabled h s
  | .isWriteProtected h => Sys2Proof.Machine.execIsWriteProtected h s
  | .isBlockProtected h block => Sys2Proof.Machine.execIsBlockProtected h block s

end Sys2Proof.Machine
end

