-- ==== Sys2Proof/Machine/Port.lean ====
section
/-! DEFINITION. The host port: what the step takes up next, a request with a reserved select code
(spec/30_encoding.md R69), and an operation in flight that goes on. -/

namespace Sys2Proof.Machine

/-- The plan of an instruction. -/
def planOf (i : Instr) (s : State) : Plan :=
  match i with
  | .cmdWren => planCmdWren s
  | .cmdWrdi => planCmdWrdi s
  | .cmdRdsr => planCmdRdsr s
  | .cmdWrsr v => planCmdWrsr v s
  | .cmdRead a n => planCmdRead a n s
  | .cmdWrite a d => planCmdWrite a d s
  | .cmdSleep => planCmdSleep s
  | .cmdWake => planCmdWake s
  | .init h gpio spi pin => planInit h gpio spi pin
  | .writeEnable h => planWriteEnable h s
  | .writeDisable h => planWriteDisable h s
  | .read h buf addr len => planRead h buf addr len s
  | .write h buf addr len data => planWrite h buf addr len data s
  | .sleep h => planSleep h s
  | .wake h => planWake h s
  | .readStatusRegister h buf => planReadStatusRegister h buf s
  | .writeStatusRegister h v => planWriteStatusRegister h v s
  | .isWriteEnabled h => planIsWriteEnabled h s
  | .isWriteProtected h => planIsWriteProtected h s
  | .isBlockProtected h block => planIsBlockProtected h block s

/-- An operation goes on from a sequencer position (spec/40_framing.md R92). A position that is no step of the
operation's micro-program is none of the machine's: nothing happens there. -/
def resumeAt (i : Instr) (k : Fin 3) (st : Step) (s : State) : State :=
  let p := planOf i s
  match st with
  | .validate => checkAndRun (opOf i) p s
  | .respond => conclude (opOf i) p.result (if s.work.fail then .failed s else .finished s)
  | .csHigh0 | .csLow | .xfer0 | .xfer1 | .csHigh | .wait =>
    match stepsFrom k st p.steps with
    | [] => s
    | m :: ms => conclude (opOf i) p.result (run (opOf i) (m :: ms) s)

/-- The operation in flight goes on, if its call is answered now (R154; log 3). -/
def State.resume (s : State) : State :=
  match s.seq, s.work.rq with
  | .busy _ k st, some i => resumeAt i k st s
  | .busy _ _ _, none => s
  | .idle, _ => s

/-- A request with a reserved select code: InvalidArgument, no capability call (R69). -/
def State.answerReserved (s : State) (op : BitVec 4) : State :=
  ((s.setResponse none).emit (.reqReserved op)).raiseInvalidArgument

/-- What the machine takes up next. -/
inductive Fetched where
  /-- The reset event. -/
  | reset (s : State)
  /-- An operation is in flight (spec/70_reset_and_hazards.md R190: no request is accepted). -/
  | inFlight
  /-- The host has nothing more to ask. -/
  | nothing
  /-- The host lets time pass. -/
  | pause (us : Nat) (s : State)
  /-- An instruction, taken off the port. -/
  | instr (i : Instr) (s : State)
  /-- A request with a reserved select code. -/
  | reserved (op : BitVec 4) (s : State)
  /-- Bytes that are neither. -/
  | bad (r : Reject)

/-- Decode what stands at a port. -/
def fetchBytes (sp : Space) (bytes : List Byte) (s : State) : Fetched :=
  match decode sp bytes with
  | .ok i => .instr i s
  | .error (.reservedOp op) => .reserved op s
  | .error .empty => .bad .empty
  | .error (.unknownOpcode b) => .bad (.unknownOpcode b)
  | .error .badLength => .bad .badLength
  | .error .addressBits => .bad .addressBits
  | .error .pastEnd => .bad .pastEnd
  | .error .truncated => .bad .truncated

/-- What stands next (spec/10_state.md R14: a request is accepted only at IDLE; log 4, log 9). -/
def State.fetch (s : State) : Fetched :=
  match s.env with
  | .reset :: e => .reset (s.setEnv e)
  | [] | .reply _ _ :: _ | .silent :: _ | .tick :: _ =>
    match s.seq with
    | .busy _ _ _ => .inFlight
    | .idle =>
      match s.host with
      | [] => .nothing
      | .pause us :: h => .pause us (s.setHost h)
      | .request bs :: h => fetchBytes .host bs (s.setHost h)
      | .frame bs :: h => fetchBytes .spi bs (s.setHost h)

/-- Put bytes where the next step fetches: in front of what the host has to do, the framer idle, and no reset
event before it. -/
def State.offer (s : State) (sp : Space) (bytes : List Byte) : State :=
  let act := match sp with
    | .host => HostAct.request bytes
    | .spi => HostAct.frame bytes
  ((s.setSeq .idle).setEnv (s.env.dropWhile fun a => a == .reset)).setHost (act :: s.host)

end Sys2Proof.Machine
end

