-- ==== Sys2Proof/Machine/Step.lean ====
section
/-! DEFINITION. One step: the reset event, or the operation in flight going on, or one act of the host. -/

namespace Sys2Proof.Machine

def step (s : State) : Host.Outcome State Fault Refusal :=
  match s.fetch with
  | .reset t => .next t.applyReset
  | .inFlight => .next s.resume
  | .nothing => .next s
  | .pause us t => .next (t.elapse us)
  | .instr i t => exec i t
  | .reserved op t => .next (t.answerReserved op)
  | .bad r => .refused (.undecodable r)

/-- `s` with a word of the opcode table, the bits above it zero, offered as the next instruction (log 8, log 9). -/
def State.withFetchWord (s : State) (nbits w : Nat) : State :=
  s.offer (tableBytes nbits w).1 (tableBytes nbits w).2

end Sys2Proof.Machine
end

