-- ==== Sys2Proof/Safety.lean ====
section
/-! DEFINITION. The terms statements are written in: the environments (spec/20_memory.md R55), the reference
chip ready for use (R49), the events of a run (spec/00_scope.md R7), and the invariants of the machine. -/

namespace Sys2Proof.Machine

/-- The call or wait is answered. -/
def Answer.isReply : Answer → Bool
  | .reply _ _ => true
  | .silent => false
  | .tick => false
  | .reset => false

/-- The call is answered with success; which bytes are received is left open. -/
def Answer.succeeds : Answer → Bool
  | .reply ok _ => ok
  | .silent => false
  | .tick => false
  | .reset => false

/-- The call succeeds and the bytes received are the reference chip's. -/
def Answer.faithful : Answer → Bool
  | .reply ok rx => ok && rx == []
  | .silent => false
  | .tick => false
  | .reset => false

/-- Every call is answered, with success or failure, and no reset event strikes. -/
abbrev State.Answered (s : State) : Prop := ∀ a ∈ s.env, a.isReply = true

/-- Every call succeeds; the received bytes are any. -/
abbrev State.CallsSucceed (s : State) : Prop := ∀ a ∈ s.env, a.succeeds = true

/-- `ENV_OK` (R55): every call succeeds and the received bytes are the reference chip's. -/
abbrev State.EnvOk (s : State) : Prop := ∀ a ∈ s.env, a.faithful = true

/-- The reference chip has a meaning for the next frame: awake, recovered, no frame under way, no `wake` owed,
never used outside its meaning (R49, U3). -/
abbrev Chip.Ready (c : Chip) : Prop :=
  c.mode = .awake ∧ c.recovery = 0 ∧ c.pending = none ∧ c.mustWake = false ∧ c.lost = false

/-- A capability call (R7). -/
def Event.isCall : Event → Bool
  | .req _ => false
  | .reqReserved _ => false
  | .pin _ _ _ => true
  | .xfer _ _ _ _ => true
  | .wait _ => false
  | .rsp _ _ _ _ => false

/-- A wait. -/
def Event.isWait : Event → Bool
  | .req _ => false
  | .reqReserved _ => false
  | .pin _ _ _ => false
  | .xfer _ _ _ _ => false
  | .wait _ => true
  | .rsp _ _ _ _ => false

/-- A capability call that answered failure. -/
def Event.failed : Event → Bool
  | .req _ => false
  | .reqReserved _ => false
  | .pin _ _ ok => !ok
  | .xfer _ _ ok _ => !ok
  | .wait _ => false
  | .rsp _ _ _ _ => false

/-- A pin write that answered failure. -/
def Event.pinFailed : Event → Bool
  | .req _ => false
  | .reqReserved _ => false
  | .pin _ _ ok => !ok
  | .xfer _ _ _ _ => false
  | .wait _ => false
  | .rsp _ _ _ _ => false

/-- An event with the received bytes and the response's payload taken off: what the framer decides. -/
def Event.shape : Event → Event
  | .req i => .req i
  | .reqReserved op => .reqReserved op
  | .pin p l ok => .pin p l ok
  | .xfer tx w ok _ => .xfer tx w ok none
  | .wait us => .wait us
  | .rsp st _ _ _ => .rsp st false none none

/-- The pin writes of a sequence of events strictly alternate LOW, HIGH, LOW, HIGH, ..., every transfer lies
between a LOW and the next HIGH, no wait or response does, and the last pin write is a HIGH (spec/40_framing.md
R82). `sel` says whether a LOW stands open. `init`'s leading HIGH is not part of the sequence. -/
def csAlternates : Bool → List Event → Bool
  | sel, [] => !sel
  | sel, .req _ :: es => !sel && csAlternates sel es
  | sel, .reqReserved _ :: es => !sel && csAlternates sel es
  | sel, .pin _ .low _ :: es => !sel && csAlternates true es
  | sel, .pin _ .high _ :: es => sel && csAlternates false es
  | sel, .xfer _ _ _ _ :: es => sel && csAlternates sel es
  | sel, .wait _ :: es => !sel && csAlternates sel es
  | sel, .rsp _ _ _ _ :: es => !sel && csAlternates sel es

/-- The events of a frame all of whose calls succeeded (spec/40_framing.md R80). -/
def frameEvents (p : Pin) (xs : List Event) : List Event := .pin p .low true :: xs ++ [.pin p .high true]

/-- A successful transfer without receive. -/
def sent (tx : List Byte) : Event := .xfer tx false true none

/-- A successful transfer with receive. -/
def exchanged (tx rx : List Byte) : Event := .xfer tx true true (some rx)

/-- A request answered OK: the handle is `h`, the events are REQ, `evs` and the response, the response record
carries the named results, chip-select is HIGH, the framer is idle (spec/30_encoding.md R68, spec/00_scope.md
R9). -/
def Completes (i : Instr) (s t : State) (h : Handle) (evs : List Event) (value : Bool) (sr : Option Byte)
    (data : Option (List Byte)) : Prop :=
  t.trace = s.trace ++ (.req i :: evs ++ [.rsp .ok value sr data]) ∧
    (∃ r, t.response = some r ∧ r.status = .ok ∧ r.value = value ∧ (∀ b, sr = some b → r.srOut = b) ∧
      ∀ d, data = some d → r.data = d) ∧
    t.handle = h ∧ t.seq = .idle ∧ t.params = s.params ∧ t.host = s.host ∧ t.chip.csLevel = .high

/-- A request answered InvalidArgument: nothing but the response (spec/60_exceptions.md R156, spec/40_framing.md
R95). -/
def Rejected (i : Instr) (s t : State) : Prop :=
  t.trace = s.trace ++ [.req i, .rsp .invalidArgument false none none] ∧
    (∃ r, t.response = some r ∧ r.status = .invalidArgument ∧ r.value = false) ∧
    t.handle = s.handle ∧ t.seq = .idle ∧ t.params = s.params ∧ t.host = s.host ∧ t.chip = s.chip ∧ t.env = s.env

/-- The causes of InvalidArgument, operation by operation, as the table of spec/60_exceptions.md R151 lists them. -/
def argumentCause (s : State) : Instr → Prop
  | .init h gpio spi _ => h = false ∨ gpio = false ∨ spi = false
  | .writeEnable h => h = false ∨ s.handle.gpioBound = false ∨ s.handle.spiBound = false
  | .writeDisable h => h = false ∨ s.handle.gpioBound = false ∨ s.handle.spiBound = false
  | .sleep h => h = false ∨ s.handle.gpioBound = false ∨ s.handle.spiBound = false
  | .wake h => h = false ∨ s.handle.gpioBound = false ∨ s.handle.spiBound = false
  | .writeStatusRegister h _ => h = false ∨ s.handle.gpioBound = false ∨ s.handle.spiBound = false
  | .isWriteEnabled h => h = false ∨ s.handle.gpioBound = false ∨ s.handle.spiBound = false
  | .isWriteProtected h => h = false ∨ s.handle.gpioBound = false ∨ s.handle.spiBound = false
  | .readStatusRegister h buf =>
    h = false ∨ s.handle.gpioBound = false ∨ s.handle.spiBound = false ∨ buf = false
  | .isBlockProtected h n =>
    h = false ∨ s.handle.gpioBound = false ∨ s.handle.spiBound = false ∨ 1 < n.toNat
  | .read h buf addr len =>
    h = false ∨ s.handle.gpioBound = false ∨ s.handle.spiBound = false ∨ buf = false ∨ len.toNat = 0 ∨
      s.params.maxXferLen < len.toNat ∨ 0x7FFFF < addr.toNat ∨ 0x7FFFF < addr.toNat + len.toNat - 1
  | .write h buf addr len _ =>
    h = false ∨ s.handle.gpioBound = false ∨ s.handle.spiBound = false ∨ buf = false ∨ len.toNat = 0 ∨
      s.params.maxXferLen < len.toNat ∨ 0x7FFFF < addr.toNat ∨ 0x7FFFF < addr.toNat + len.toNat - 1
  | .cmdWren => False
  | .cmdWrdi => False
  | .cmdRdsr => False
  | .cmdWrsr _ => False
  | .cmdRead _ _ => False
  | .cmdWrite _ _ => False
  | .cmdSleep => False
  | .cmdWake => False

/-- What an answer is to the framer: everything but the bytes received. -/
def Answer.decision : Answer → Answer
  | .reply ok _ => .reply ok []
  | .silent => .silent
  | .tick => .tick
  | .reset => .reset

/-- Answers that the framer cannot tell apart but by received bytes. -/
abbrev SameDecisions (e e' : List Answer) : Prop :=
  e.map Answer.decision = e'.map Answer.decision

/-- The four operations that read the status register: the ones R192 speaks of (spec/70_reset_and_hazards.md). -/
def readsStatus : Op → Bool
  | .readStatusRegister | .isWriteEnabled | .isWriteProtected | .isBlockProtected => true
  | .cmdWren | .cmdWrdi | .cmdRdsr | .cmdWrsr | .cmdRead | .cmdWrite | .cmdSleep | .cmdWake
  | .init | .writeEnable | .writeDisable | .read | .write | .sleep | .wake | .writeStatusRegister => false

/-- An operation in flight goes on, step after step, each in an environment of its own, until it has ended
(spec/60_exceptions.md R154: a call left open can be answered later). -/
def State.goOn : List (List Answer) → State → State
  | [], s => s
  | e :: es, s =>
    match s.seq with
    | .idle => s
    | .busy _ _ _ =>
      match step (s.setEnv e) with
      | .next t => State.goOn es t
      | .fault _ => s
      | .refused _ => s

/-- The invariant of the reference chip: the array is in canonical form and inside its 2^19 addresses, and the
reserved status bits are 0 (R40, spec/10_state.md R17). -/
abbrev Chip.Inv (c : Chip) : Prop := Memory.wf c.mem ∧ c.sr &&& 0x71#8 = 0#8

/-- The invariant of the framer: the two BOUND bits agree (spec/10_state.md R11), an operation in flight stands
at a step of the micro-program of the request latched in RQ (R13, R14), on a bound handle (spec/40_framing.md
R94) and without a response, and chip-select is not driven LOW between operations on a bound handle nor during a
wait (R82, spec/43_power_ops.md R121). -/
def State.FramerInv (s : State) : Prop :=
  s.handle.gpioBound = s.handle.spiBound ∧
  match s.seq with
  | .idle => s.handle.bound = true → s.chip.csLevel ≠ .low
  | .busy op k st =>
    s.handle.bound = true ∧ s.response = none ∧ (st = .wait → s.chip.csLevel ≠ .low) ∧
      ∃ i, s.work.rq = some i ∧ opOf i = op ∧ stepsFrom k st (planOf i s).steps ≠ []

/-- The invariant of the wire: on a bound handle the chip-select wire has the level of the handle's pin, but for
`init` before its leading pin write has been answered (spec/10_state.md R19, R20; log 23). -/
def State.WireInv (s : State) : Prop :=
  s.handle.bound = true → (∀ op k, s.seq ≠ .busy op k .csHigh0) → s.chip.csLevel = s.pinLevel s.handle.csPin

end Sys2Proof.Machine
end

