-- ==== Sys2Proof/Certificates/Slice0/Obligations.lean ====
section
/-! DEFINITION. The statements for the provers. Premises in words: "every call is answered" is `State.Answered`,
"every call succeeds" `State.CallsSucceed`, "ENV_OK" `State.EnvOk`, "the chip is ready" `Chip.Ready`. -/

open Sys2Proof Sys2Proof.Machine

/-! ## Encodings -/

/-- R62: the opcode table. Each of the eight opcode bytes, with the bytes its format asks for, is that command;
any other first byte is none. -/
def Obligations.OpcodeBytesNameTheirCommands : Prop :=
  decode .spi [0x06#8] = .ok .cmdWren ∧
    decode .spi [0x04#8] = .ok .cmdWrdi ∧
    (∀ d, decode .spi [0x05#8, d] = .ok .cmdRdsr) ∧
    (∀ v, decode .spi [0x01#8, v] = .ok (.cmdWrsr v)) ∧
    decode .spi [0x03#8, 0x07#8, 0xFF#8, 0xFC#8, 0#8, 0#8, 0#8, 0#8] = .ok (.cmdRead 0x7FFFC#19 4) ∧
    decode .spi [0x02#8, 0x01#8, 0x23#8, 0x45#8, 0xAA#8] = .ok (.cmdWrite 0x12345#19 [0xAA#8]) ∧
    decode .spi [0xB9#8] = .ok .cmdSleep ∧
    decode .spi [0xAB#8] = .ok .cmdWake ∧
    ∀ b rest, b ∉ [0x06#8, 0x04#8, 0x05#8, 0x01#8, 0x03#8, 0x02#8, 0xB9#8, 0xAB#8] →
      decode .spi (b :: rest) = .error (.unknownOpcode b)

/-- The select codes of R66 in the low four bits of the first request byte, `h_present` in bit 4 (the places are
the model's choice, log 6): a few whole words. -/
def Obligations.SelectCodesNameTheirOperations : Prop :=
  decode .host [0x70#8, 0x03#8] = .ok (.init true true true 3#8) ∧
    decode .host [0x11#8] = .ok (.writeEnable true) ∧
    decode .host [0x12#8] = .ok (.writeDisable true) ∧
    decode .host [0x93#8, 0#8, 7#8, 0xFF#8, 0xFC#8, 0#8, 0#8, 0#8, 4#8] = .ok (.read true true 0x7FFFC#32 4#32) ∧
    decode .host [0x94#8, 0#8, 7#8, 0xFF#8, 0xFC#8, 0#8, 0#8, 0#8, 2#8, 1#8, 2#8] =
      .ok (.write true true 0x7FFFC#32 2#32 [1#8, 2#8]) ∧
    decode .host [0x15#8] = .ok (.sleep true) ∧
    decode .host [0x16#8] = .ok (.wake true) ∧
    decode .host [0x97#8] = .ok (.readStatusRegister true true) ∧
    decode .host [0x18#8, 0x88#8] = .ok (.writeStatusRegister true 0x88#8) ∧
    decode .host [0x19#8] = .ok (.isWriteEnabled true) ∧
    decode .host [0x1A#8] = .ok (.isWriteProtected true) ∧
    decode .host [0x1B#8, 0x01#8] = .ok (.isBlockProtected true 1#8)

/-- Decoding an encoded well-formed instruction gives it back, every operand at every value. -/
def Obligations.DecodeInvertsEncode : Prop :=
  ∀ i : Instr, i.wellFormed = true → decode i.space (encode i) = .ok i

/-- What the decoder accepts is a well-formed instruction of the port it stands at. -/
def Obligations.DecodedInstructionsAreWellFormed : Prop :=
  ∀ (sp : Space) (bs : List Byte) (i : Instr), decode sp bs = .ok i → i.wellFormed = true ∧ i.space = sp

/-- R61: what a frame's transfers send, put together, is the encoding of the command. -/
def Obligations.FrameContentIsTheEncoding : Prop :=
  content cmdWREN = encode .cmdWren ∧ content cmdWRDI = encode .cmdWrdi ∧ content cmdRDSR = encode .cmdRdsr ∧
    (∀ v, content (cmdWRSR v) = encode (.cmdWrsr v)) ∧
    (∀ a n, content (cmdREAD a n) = encode (.cmdRead a n)) ∧
    (∀ a d, content (cmdWRITE a d) = encode (.cmdWrite a d)) ∧
    content cmdSLEEP = encode .cmdSleep ∧ content cmdWAKE = encode .cmdWake

/-- R44, R46 against R63: the reference chip reads in a frame the command, the address and the payload the framer
put there. -/
def Obligations.ChipReadsWhatTheFramerSends : Prop :=
  chipDecode (content cmdWREN) = some .wren ∧ chipDecode (content cmdWRDI) = some .wrdi ∧
    chipDecode (content cmdRDSR) = some .rdsr ∧ (∀ v, chipDecode (content (cmdWRSR v)) = some (.wrsr v)) ∧
    (∀ a n, payloadFits a n = true → chipDecode (content (cmdREAD a n)) = some (.read a n)) ∧
    (∀ a d, payloadFits a d.length = true → chipDecode (content (cmdWRITE a d)) = some (.write a d)) ∧
    chipDecode (content cmdSLEEP) = some .sleep ∧ chipDecode (content cmdWAKE) = some .wake

/-- R33: the three address bytes, most significant first, of the 19-bit address zero-extended into 24 bits; bits
7:3 of the first are 0. -/
def Obligations.AddressBytesAreBigEndian : Prop :=
  ∀ a : Addr, ∃ a2 a1 a0 : Byte, addrBytes a = [a2, a1, a0] ∧ a2.toNat = a.toNat / 65536 ∧
    a1.toNat = a.toNat / 256 % 256 ∧ a0.toNat = a.toNat % 256 ∧ a2.toNat < 8

/-- R32: the mask is `addr & 0x7FFFF`, and after the range check it changes nothing. -/
def Obligations.MaskKeepsACheckedAddress : Prop :=
  ∀ (addr len : Field32) (m : Nat), (maskAddr addr).toNat = addr.toNat % 524288 ∧
    (rangeOK m addr len = true → (maskAddr addr).toNat = addr.toNat)

/-! ## The step -/

/-- The step takes the host's next request off the port and runs the instruction its bytes decode to; the same
for a command frame (log 7, log 9). -/
def Obligations.StepRunsTheDecodedInstruction : Prop :=
  ∀ (s : State) (bs : List Byte) (rest : List HostAct) (i : Instr),
    s.env.head? ≠ some .reset → s.seq = .idle →
      (s.host = .request bs :: rest → decode .host bs = .ok i → step s = exec i (s.setHost rest)) ∧
      (s.host = .frame bs :: rest → decode .spi bs = .ok i → step s = exec i (s.setHost rest))

/-- R69: a request with a reserved select code is answered InvalidArgument, whatever its other bits, with no
capability call. The place of the code in the byte is the model's choice (log 6). -/
def Obligations.ReservedSelectCodesRejected : Prop :=
  ∀ (s : State) (op : BitVec 4) (h gpio spi buf : Bool) (bs : List Byte) (rest : List HostAct),
    12 ≤ op.toNat → s.env.head? ≠ some .reset → s.seq = .idle →
    s.host = .request (requestByte op h gpio spi buf :: bs) :: rest →
    ∃ t, step s = .next t ∧
      t.trace = s.trace ++ [.reqReserved op, .rsp .invalidArgument false none none] ∧
      (∃ r, t.response = some r ∧ r.status = .invalidArgument ∧ r.value = false) ∧
      t.handle = s.handle ∧ t.chip = s.chip ∧ t.env = s.env ∧ t.seq = .idle ∧ t.host = rest

/-- R190: while an operation is in flight no request is taken off the port. -/
def Obligations.NoRequestAcceptedInFlight : Prop :=
  ∀ (s : State), s.seq ≠ .idle → ∃ t, step s = .next t ∧ t.host = s.host

/-! ## Reset -/

/-- R181, the values the spec gives: the machine right after reset. -/
def Obligations.ResetLeavesTheHandleUnbound : Prop :=
  State.reset.handle.gpioBound = false ∧ State.reset.handle.spiBound = false ∧ State.reset.seq = .idle ∧
    State.reset.response = none ∧ State.reset.trace = [] ∧ State.reset.chip.csLevel = .unknown

/-- R181, R182, R21, R180: a reset event that stands next in the environment at a step (log 4) unbinds the handle,
idles the sequencer, drops the pending response, makes no capability call, and leaves the chip's registers, its
array and the wire as they were. -/
def Obligations.ResetEventSparesTheChip : Prop :=
  ∀ (s : State) (e : List Answer), s.env = .reset :: e →
    ∃ t, step s = .next t ∧ t.handle.gpioBound = false ∧ t.handle.spiBound = false ∧ t.seq = .idle ∧
      t.response = none ∧ t.trace = s.trace ∧ t.chip.mem = s.chip.mem ∧ t.chip.sr = s.chip.sr ∧
      t.chip.mode = s.chip.mode ∧ t.chip.afterRead = s.chip.afterRead ∧ t.chip.csLevel = s.chip.csLevel ∧
      t.params = s.params ∧ t.host = s.host ∧ t.env = e

/-- R183, log 4: a reset event at a call or wait of an operation stops it there. Of the events `ev` it would have
made (`u` is the same operation without the reset) exactly those already answered are seen: no event of the call it
meets, no deselect attempt after it, no response; the handle is unbound, and chip-select stays LOW where a select
was the last pin write. A reset the operation does not reach changes nothing of it. -/
def Obligations.ResetCutsAnOperationOff : Prop :=
  ∀ (i : Instr) (s : State) (l e : List Answer), (planOf i s).valid = true → (∀ a ∈ l, a.isReply = true) →
    s.env = l ++ .reset :: e →
    ∃ t u ev st v sr d, exec i s = .next t ∧ exec i (s.setEnv l) = .next u ∧
      u.trace = s.trace ++ (.req i :: ev ++ [.rsp st v sr d]) ∧
      (l.length < ev.length →
        t.trace = s.trace ++ (.req i :: ev.take l.length) ∧ t.response = none ∧ t.seq = .idle ∧
        t.handle.bound = false ∧ t.env = e ∧
        ∀ p l₁ l₂, ev.take l.length = l₁ ++ .pin p .low true :: l₂ → (∀ x ∈ l₂, ∀ q lv ok, x ≠ .pin q lv ok) →
          t.chip.csLevel = .low ∧ t.pinLevel p = .low) ∧
      (ev.length ≤ l.length → t.trace = u.trace ∧ t.response = u.response ∧ t.handle = u.handle ∧
        t.env = l.drop ev.length ++ .reset :: e)

/-! ## Failures -/

/-- R151, R156, R95: InvalidArgument is answered exactly for the causes listed, operation by operation, whatever
the environment does, and then nothing else happens: no event, the handle and the chip as before. -/
def Obligations.InvalidArgumentExactlyForTheListedCauses : Prop :=
  ∀ (i : Instr) (s : State), i.space = .host →
    ∃ t, exec i s = .next t ∧ (argumentCause s i → Rejected i s t) ∧
      (¬argumentCause s i → (∀ r, t.response = some r → r.status ≠ .invalidArgument) ∧
        (s.Answered → t.response ≠ none))

/-- A command frame run on its own on an unbound handle, or with a payload longer than MAX_XFER_LEN or past the
end of the array, is answered InvalidArgument with no capability call (the model's choice, log 7). -/
def Obligations.LoneFramesChecked : Prop :=
  ∀ (i : Instr) (s : State), i.space = .spi →
    (s.handle.bound = false ∨ (∃ a n, i = .cmdRead a n ∧ payloadOk a n s = false) ∨
      (∃ a d, i = .cmdWrite a d ∧ payloadOk a d.length s = false)) →
    ∃ t, exec i s = .next t ∧ Rejected i s t

/-- R152, R155: when every call is answered, every instruction ends with a response, the framer idle; its status
is CapabilityFailure exactly when some capability call of it answered failure; InvalidArgument comes with no
call; a status other than OK comes with `value` 0. -/
def Obligations.AnyFailedCallDecidesTheStatus : Prop :=
  ∀ (i : Instr) (s : State), s.Answered →
    ∃ t l r, exec i s = .next t ∧ t.trace = s.trace ++ l ∧ t.seq = .idle ∧ t.response = some r ∧
      (r.status = .capabilityFailure ↔ ∃ e ∈ l, e.failed = true) ∧
      (r.status = .invalidArgument → ∀ e ∈ l, e.isCall = false) ∧
      (r.status ≠ .ok → r.value = false)

/-- R80, R81, R83: a frame makes one select, then transfers in list order, each but the last successful and none
after a failed select, then exactly one deselect attempt; it is Done exactly when every one of its calls
succeeded and all its transfers were made. -/
def Obligations.FrameSelectsTransfersDeselects : Prop :=
  ∀ (op : Op) (k : Fin 3) (xs : List Xfer) (s : State), s.Answered →
    ∃ t okL okH evs, t.trace = s.trace ++ (.pin s.handle.csPin .low okL :: evs ++ [.pin s.handle.csPin .high okH]) ∧
      List.Forall₂ (fun e x => ∃ ok rx, e = Event.xfer x.tx x.wantRx ok rx) evs (xs.take evs.length) ∧
      (okL = false → evs = []) ∧ (∀ e ∈ evs.dropLast, e.failed = false) ∧
      ((run op (frameSteps k xs) s = .finished t ∧ okL = true ∧ okH = true ∧ evs.length = xs.length ∧
          ∀ e ∈ evs, e.failed = false) ∨
        (run op (frameSteps k xs) s = .failed t ∧ (okL = false ∨ okH = false ∨ ∃ e ∈ evs, e.failed = true)))

/-- R96: the bracket is three frames, each sent only when the one before it was Done. -/
def Obligations.BracketStopsAtTheFirstFailedFrame : Prop :=
  ∀ (op : Op) (f : List Xfer) (s : State),
    run op (bracketed f) s =
      match run op (frameSteps 0 cmdWREN) s with
      | .finished t =>
        match run op (frameSteps 1 f) t with
        | .finished u => run op (frameSteps 2 cmdWRDI) u
        | .failed u => .failed u
        | .held u => .held u
      | .failed t => .failed t
      | .held t => .held t

/-- R82: the pin writes of an operation strictly alternate LOW, HIGH, every transfer lies between, and the last
is a HIGH, on every path; `init` has one HIGH more at the front. -/
def Obligations.ChipSelectAlternates : Prop :=
  ∀ (i : Instr) (s : State), s.Answered →
    ∃ t l, exec i s = .next t ∧ t.trace = s.trace ++ l ∧
      (opOf i ≠ .init → csAlternates false l = true) ∧
      (opOf i = .init → l = [.req i, .rsp .invalidArgument false none none] ∨
        ∃ p ok l', l = .req i :: .pin p .high ok :: l' ∧ csAlternates false l' = true)

/-- R193, R82: after an operation one of whose pin writes failed the level of chip-select is unknown; when all of
them succeeded it is HIGH, provided the operation made a call or it was HIGH before. -/
def Obligations.ChipSelectLevelAfterAnOperation : Prop :=
  ∀ (i : Instr) (s : State), s.Answered →
    ∃ t l, exec i s = .next t ∧ t.trace = s.trace ++ l ∧
      ((∃ e ∈ l, e.pinFailed = true) → t.chip.csLevel = .unknown) ∧
      ((∀ e ∈ l, e.pinFailed = false) → (s.chip.csLevel = .high ∨ ∃ e ∈ l, e.isCall = true) →
        t.chip.csLevel = .high)

/-- R92: at most 9 capability calls and one wait in any operation; at most 4 calls in `init` and in an operation
with one RDSR frame; at most 3 in the others but `write` and `write_status_register`; however often a call is left
open and the operation goes on at a later step. -/
def Obligations.OperationsMakeFewCalls : Prop :=
  ∀ (i : Instr) (s : State) (es : List (List Answer)),
    ∃ t l, exec i s = .next t ∧ (t.goOn es).trace = s.trace ++ l ∧ (l.filter Event.isWait).length ≤ 1 ∧
      (l.filter Event.isCall).length ≤
        match opOf i with
        | .write | .writeStatusRegister => 9
        | .init | .readStatusRegister | .isWriteEnabled | .isWriteProtected | .isBlockProtected | .cmdRdsr => 4
        | .writeEnable | .writeDisable | .read | .sleep | .wake | .cmdWren | .cmdWrdi | .cmdWrsr | .cmdRead
        | .cmdWrite | .cmdSleep | .cmdWake => 3

/-- R11: only `init` writes the handle, all three registers together, once its arguments are good and whatever
its calls answer (R100, R185); the OPEN parameters and the host's program are no instruction's to write. -/
def Obligations.OnlyInitWritesTheHandle : Prop :=
  ∀ (i : Instr) (s : State), s.Answered →
    ∃ t, exec i s = .next t ∧ t.params = s.params ∧ t.host = s.host ∧
      (opOf i ≠ .init → t.handle = s.handle) ∧
      ∀ h gpio spi pin, i = .init h gpio spi pin →
        t.handle = if h && gpio && spi then ⟨true, true, pin⟩ else s.handle

/-- R92, R12, R53: which events an instruction makes depends on the request, the handle and the success bits
alone: not on received bytes, not on what the chip holds, not on anything done before. -/
def Obligations.EventsDependOnSuccessBitsOnly : Prop :=
  ∀ (i : Instr) (s s' : State), s.handle = s'.handle → s.params.maxXferLen = s'.params.maxXferLen →
    s.params.tickNs = s'.params.tickNs → SameDecisions s.env s'.env →
    ∃ t t' l l', exec i s = .next t ∧ exec i s' = .next t' ∧ t.trace = s.trace ++ l ∧ t'.trace = s'.trace ++ l' ∧
      l.map Event.shape = l'.map Event.shape

/-- R154: an operation whose call is not answered gives no response; while the call stays unanswered a step
changes nothing; where no tick comes in (log 3), that is how it is left. -/
def Obligations.UnansweredCallWaitsForEver : Prop :=
  ∀ (i : Instr) (s t : State), exec i s = .next t → t.seq ≠ .idle →
    t.response = none ∧ (t.env.head? = some .silent → step t = .next t) ∧
      (.tick ∉ s.env → t.env.head? = some .silent)

/-- R163: while the wait of `sleep` or `wake` lasts, DLY holds the least number of ticks that is no shorter than
the minimum. -/
def Obligations.DelayCounterRoundsUp : Prop :=
  ∀ (s : State) (r1 r2 r3 : List Byte) (e : List Answer), s.handle.bound = true → 1 ≤ s.params.tickNs →
    s.env = .reply true r1 :: .reply true r2 :: .reply true r3 :: .silent :: e →
    (∃ t, exec (.sleep true) s = .next t ∧ t.seq = .busy .sleep 0 .wait ∧ t.chip.csLevel = .high ∧
      100000 ≤ t.work.dly * s.params.tickNs ∧ (t.work.dly - 1) * s.params.tickNs < 100000) ∧
    (∃ t, exec (.wake true) s = .next t ∧ t.seq = .busy .wake 0 .wait ∧ t.chip.csLevel = .high ∧
      400000 ≤ t.work.dly * s.params.tickNs ∧ (t.work.dly - 1) * s.params.tickNs < 400000)

/-- R163: at WAIT a tick of the timebase takes one off DLY, and nothing else; the wait ends, with its event and the
response OK, when DLY reaches zero. How ticks come in is the model's choice (log 20). -/
def Obligations.DelayCounterCountsTheTicks : Prop :=
  ∀ (s : State) (op : Op) (i : Instr) (us : Nat) (e : List Answer),
    (op = .sleep ∧ i = .sleep true ∧ us = 100) ∨ (op = .wake ∧ i = .wake true ∧ us = 400) →
    s.seq = .busy op 0 .wait → s.work.rq = some i → s.env = .tick :: e →
    (1 < s.work.dly → step s = .next ((s.setEnv e).setWork { s.work with dly := s.work.dly - 1 })) ∧
    (s.work.dly = 1 → ∃ t r, step s = .next t ∧ t.trace = s.trace ++ [.wait us, .rsp .ok false none none] ∧
      t.response = some r ∧ r.status = .ok ∧ t.seq = .idle ∧ t.work.dly = 0 ∧ t.env = e ∧ t.handle = s.handle ∧
      t.chip.csLevel = s.chip.csLevel)

/-- R120, R121, R156: `sleep` and `wake` wait exactly when they answer OK, and the wait is the last event before
the response. -/
def Obligations.WaitOnlyAfterASuccessfulFrame : Prop :=
  ∀ (s : State), s.Answered →
    (∃ t l r, exec (.sleep true) s = .next t ∧ t.trace = s.trace ++ l ∧ t.response = some r ∧
      (r.status = .ok → ∃ l', l = l' ++ [.wait 100, .rsp .ok false none none] ∧ ∀ e ∈ l', e.isWait = false) ∧
      (r.status ≠ .ok → ∀ e ∈ l, e.isWait = false)) ∧
    (∃ t l r, exec (.wake true) s = .next t ∧ t.trace = s.trace ++ l ∧ t.response = some r ∧
      (r.status = .ok → ∃ l', l = l' ++ [.wait 400, .rsp .ok false none none] ∧ ∀ e ∈ l', e.isWait = false) ∧
      (r.status ≠ .ok → ∀ e ∈ l, e.isWait = false))

/-! ## The operations, when every call succeeds, on any chip and any received bytes -/

/-- R100: `init` binds the handle, drives chip-select HIGH and sends one Write-Disable frame. -/
def Obligations.InitCompletes : Prop :=
  ∀ (s : State) (pin : Pin), s.CallsSucceed →
    ∃ t, exec (.init true true true pin) s = .next t ∧
      Completes (.init true true true pin) s t ⟨true, true, pin⟩
        (.pin pin .high true :: frameEvents pin [sent [0x04#8]]) false none none

/-- R101, R102: `write_enable` sends one WREN frame, `write_disable` one WRDI frame. -/
def Obligations.WriteEnableAndDisableComplete : Prop :=
  ∀ (s : State), s.CallsSucceed → s.handle.bound = true →
    (∃ t, exec (.writeEnable true) s = .next t ∧
      Completes (.writeEnable true) s t s.handle (frameEvents s.handle.csPin [sent [0x06#8]]) false none none) ∧
    (∃ t, exec (.writeDisable true) s = .next t ∧
      Completes (.writeDisable true) s t s.handle (frameEvents s.handle.csPin [sent [0x04#8]]) false none none)

/-- R110: `read` sends one READ frame and answers with the received bytes from the fifth on, `len` of them. -/
def Obligations.ReadCompletes : Prop :=
  ∀ (s : State) (addr len : Field32), s.CallsSucceed → s.handle.bound = true →
    rangeOK s.params.maxXferLen addr len = true →
    ∃ t rx, exec (.read true true addr len) s = .next t ∧ rx.length = 4 + len.toNat ∧
      Completes (.read true true addr len) s t s.handle
        (frameEvents s.handle.csPin
          [exchanged (0x03#8 :: addrBytes (maskAddr addr) ++ List.replicate len.toNat 0x00#8) rx])
        false none (some (rx.drop 4))

/-- R111: `write` sends the WRITE frame, the whole payload in one transfer, between a WREN and a WRDI frame. -/
def Obligations.WriteCompletes : Prop :=
  ∀ (s : State) (addr len : Field32) (data : List Byte), s.CallsSucceed → s.handle.bound = true →
    rangeOK s.params.maxXferLen addr len = true → data.length = len.toNat →
    ∃ t, exec (.write true true addr len data) s = .next t ∧
      Completes (.write true true addr len data) s t s.handle
        (frameEvents s.handle.csPin [sent [0x06#8]] ++
          frameEvents s.handle.csPin [sent (0x02#8 :: addrBytes (maskAddr addr) ++ data)] ++
          frameEvents s.handle.csPin [sent [0x04#8]])
        false none none

/-- R120, R121: one frame, then the wait, chip-select HIGH. -/
def Obligations.SleepAndWakeComplete : Prop :=
  ∀ (s : State), s.CallsSucceed → s.handle.bound = true →
    (∃ t, exec (.sleep true) s = .next t ∧
      Completes (.sleep true) s t s.handle
        (frameEvents s.handle.csPin [sent [0xB9#8]] ++ [.wait 100]) false none none) ∧
    (∃ t, exec (.wake true) s = .next t ∧
      Completes (.wake true) s t s.handle
        (frameEvents s.handle.csPin [sent [0xAB#8]] ++ [.wait 400]) false none none)

/-- R130: `read_status_register` makes two one-byte transfers in one frame and answers with the byte received in
the second, unchanged. -/
def Obligations.ReadStatusRegisterCompletes : Prop :=
  ∀ (s : State), s.CallsSucceed → s.handle.bound = true →
    ∃ t b, exec (.readStatusRegister true true) s = .next t ∧
      Completes (.readStatusRegister true true) s t s.handle
        (frameEvents s.handle.csPin [sent [0x05#8], exchanged [0x00#8] [b]]) false (some b) none

/-- R131: `write_status_register` sends the value unchanged, bracketed as `write` is. -/
def Obligations.WriteStatusRegisterCompletes : Prop :=
  ∀ (s : State) (v : Byte), s.CallsSucceed → s.handle.bound = true →
    ∃ t, exec (.writeStatusRegister true v) s = .next t ∧
      Completes (.writeStatusRegister true v) s t s.handle
        (frameEvents s.handle.csPin [sent [0x06#8]] ++ frameEvents s.handle.csPin [sent [0x01#8, v]] ++
          frameEvents s.handle.csPin [sent [0x04#8]])
        false none none

/-- R132 to R135, R64: the queries make the events of a status read and answer one bit of the byte received:
bit 1, bit 7, bit 2 for block 0 and bit 3 for block 1, whatever the other bits. -/
def Obligations.QueriesAnswerOneBit : Prop :=
  ∀ (s : State), s.CallsSucceed → s.handle.bound = true →
    (∃ t b, exec (.isWriteEnabled true) s = .next t ∧
      Completes (.isWriteEnabled true) s t s.handle
        (frameEvents s.handle.csPin [sent [0x05#8], exchanged [0x00#8] [b]]) (b.getLsbD 1) none none) ∧
    (∃ t b, exec (.isWriteProtected true) s = .next t ∧
      Completes (.isWriteProtected true) s t s.handle
        (frameEvents s.handle.csPin [sent [0x05#8], exchanged [0x00#8] [b]]) (b.getLsbD 7) none none) ∧
    (∀ n : Byte, n.toNat ≤ 1 → ∃ t b, exec (.isBlockProtected true n) s = .next t ∧
      Completes (.isBlockProtected true n) s t s.handle
        (frameEvents s.handle.csPin [sent [0x05#8], exchanged [0x00#8] [b]]) (b.getLsbD (2 + n.toNat)) none none)

/-- R84 to R91: each command frame run on its own (log 7) makes the events of its frame; READ and RDSR give
the bytes received. -/
def Obligations.LoneFramesComplete : Prop :=
  ∀ (s : State), s.CallsSucceed → s.handle.bound = true →
    (∃ t, exec .cmdWren s = .next t ∧
      Completes .cmdWren s t s.handle (frameEvents s.handle.csPin [sent [0x06#8]]) false none none) ∧
    (∃ t, exec .cmdWrdi s = .next t ∧
      Completes .cmdWrdi s t s.handle (frameEvents s.handle.csPin [sent [0x04#8]]) false none none) ∧
    (∃ t b, exec .cmdRdsr s = .next t ∧
      Completes .cmdRdsr s t s.handle
        (frameEvents s.handle.csPin [sent [0x05#8], exchanged [0x00#8] [b]]) false (some b) none) ∧
    (∀ v, ∃ t, exec (.cmdWrsr v) s = .next t ∧
      Completes (.cmdWrsr v) s t s.handle (frameEvents s.handle.csPin [sent [0x01#8, v]]) false none none) ∧
    (∀ a n, payloadOk a n s = true → ∃ t rx, exec (.cmdRead a n) s = .next t ∧ rx.length = 4 + n ∧
      Completes (.cmdRead a n) s t s.handle
        (frameEvents s.handle.csPin [exchanged (0x03#8 :: addrBytes a ++ List.replicate n 0x00#8) rx])
        false none (some (rx.drop 4))) ∧
    (∀ a d, payloadOk a d.length s = true → ∃ t, exec (.cmdWrite a d) s = .next t ∧
      Completes (.cmdWrite a d) s t s.handle
        (frameEvents s.handle.csPin [sent (0x02#8 :: addrBytes a ++ d)]) false none none) ∧
    (∃ t, exec .cmdSleep s = .next t ∧
      Completes .cmdSleep s t s.handle (frameEvents s.handle.csPin [sent [0xB9#8]]) false none none) ∧
    (∃ t, exec .cmdWake s = .next t ∧
      Completes .cmdWake s t s.handle (frameEvents s.handle.csPin [sent [0xAB#8]]) false none none)

/-! ## The operations on the reference chip, under ENV_OK -/

/-- R41, R42: `write_enable` sets the latch, `write_disable` and `init` clear it; nothing else of the chip changes
but AFTER_READ and the level of chip-select. -/
def Obligations.EnableAndDisableFramesSetTheLatch : Prop :=
  ∀ (s : State), s.EnvOk → s.chip.Ready →
    (s.handle.bound = true → ∃ t, exec (.writeEnable true) s = .next t ∧
      t.chip = { s.chip with sr := setWel s.chip.sr true, afterRead := false, csLevel := .high }) ∧
    (s.handle.bound = true → ∃ t, exec (.writeDisable true) s = .next t ∧
      t.chip = { s.chip with sr := setWel s.chip.sr false, afterRead := false, csLevel := .high }) ∧
    (∀ pin, ∃ t, exec (.init true true true pin) s = .next t ∧
      t.chip = { s.chip with sr := setWel s.chip.sr false, afterRead := false, csLevel := .high })

/-- R46, R47, R34: `write` stores payload byte `i` at `addr + i` where the address is not protected, leaves every
other byte of the array, and leaves the latch clear and the other status bits as they were; its response is OK
whatever is protected (R196). -/
def Obligations.WriteStoresTheUnprotectedBytes : Prop :=
  ∀ (s : State) (addr len : Field32) (data : List Byte), s.EnvOk → s.chip.Ready → s.chip.Inv →
    s.handle.bound = true → rangeOK s.params.maxXferLen addr len = true → data.length = len.toNat →
    ∃ t, exec (.write true true addr len data) s = .next t ∧
      (∃ r, t.response = some r ∧ r.status = .ok) ∧
      (∀ x, Memory.read t.chip.mem x =
        if addr.toNat ≤ x ∧ x < addr.toNat + len.toNat ∧
            isProtected s.params (setWel s.chip.sr true) x = false then
          data.getD (x - addr.toNat) 0#8
        else Memory.read s.chip.mem x) ∧
      t.chip.sr = setWel s.chip.sr false ∧ t.chip.mode = s.chip.mode ∧ t.chip.afterRead = false

/-- R45: `write_status_register` gives WPEN, BP1 and BP0 the bits 7, 3 and 2 of the value unless SR_LOCKED, and
clears the latch; the array and the other bits keep their value. SR_LOCKED as a function of WPEN is the model's choice (log 27). -/
def Obligations.WriteStatusRegisterTakesThreeBits : Prop :=
  ∀ (s : State) (v : Byte), s.EnvOk → s.chip.Ready → s.handle.bound = true →
    ∃ t, exec (.writeStatusRegister true v) s = .next t ∧
      t.chip = { s.chip with sr := t.chip.sr, afterRead := false, csLevel := .high } ∧
      (∀ k < 8, t.chip.sr.getLsbD k =
        if k = 1 then false
        else if (k = 7 ∨ k = 3 ∨ k = 2) ∧
            (if s.chip.sr.getLsbD 7 then s.params.lockWpen1 else s.params.lockWpen0) = false then v.getLsbD k
        else s.chip.sr.getLsbD k)

/-- R45, R46: a write-type frame that comes while the latch is clear stores nothing and changes no status bit
(seen on the frames run on their own, log 7). -/
def Obligations.WriteTypeFramesNeedTheLatch : Prop :=
  ∀ (s : State) (a : Addr) (d : List Byte) (v : Byte), s.EnvOk → s.chip.Ready → s.chip.afterRead = false →
    s.handle.bound = true → s.chip.sr.getLsbD 1 = false → payloadOk a d.length s = true →
    (∃ t r, exec (.cmdWrite a d) s = .next t ∧ t.response = some r ∧ r.status = .ok ∧
      t.chip = { s.chip with csLevel := .high }) ∧
    (∃ t r, exec (.cmdWrsr v) s = .next t ∧ t.response = some r ∧ r.status = .ok ∧
      t.chip = { s.chip with csLevel := .high })

/-- R44, R38: `read` answers with the bytes of the array from `addr` on, lowest address first, and changes nothing
of the chip but AFTER_READ and the level of chip-select. -/
def Obligations.ReadReturnsTheArray : Prop :=
  ∀ (s : State) (addr len : Field32), s.EnvOk → s.chip.Ready → s.handle.bound = true →
    rangeOK s.params.maxXferLen addr len = true →
    ∃ t r, exec (.read true true addr len) s = .next t ∧ t.response = some r ∧ r.status = .ok ∧
      r.data.length = len.toNat ∧
      (∀ i < len.toNat, r.data[i]? = some (Memory.read s.chip.mem (addr.toNat + i))) ∧
      t.chip = { s.chip with afterRead := true, csLevel := .high }

/-- R43: a status read that does not follow a READ frame answers with the status register and changes nothing of
the chip but the level of chip-select; the queries see the same register. -/
def Obligations.StatusReadReturnsTheRegister : Prop :=
  ∀ (s : State), s.EnvOk → s.chip.Ready → s.chip.afterRead = false → s.handle.bound = true →
    (∃ t r, exec (.readStatusRegister true true) s = .next t ∧ t.response = some r ∧ r.status = .ok ∧
      r.srOut = s.chip.sr ∧ t.chip = { s.chip with csLevel := .high }) ∧
    (∃ t r, exec (.isWriteEnabled true) s = .next t ∧ t.response = some r ∧ r.status = .ok ∧
      r.value = s.chip.sr.getLsbD 1 ∧ t.chip = { s.chip with csLevel := .high }) ∧
    (∃ t r, exec (.isWriteProtected true) s = .next t ∧ t.response = some r ∧ r.status = .ok ∧
      r.value = s.chip.sr.getLsbD 7 ∧ t.chip = { s.chip with csLevel := .high }) ∧
    (∀ n : Byte, n.toNat ≤ 1 → ∃ t r, exec (.isBlockProtected true n) s = .next t ∧ t.response = some r ∧
      r.status = .ok ∧ r.value = s.chip.sr.getLsbD (2 + n.toNat) ∧ t.chip = { s.chip with csLevel := .high })

/-- R48, R49 (a), R191: on a ready chip `sleep` leaves the chip asleep and the host owing it a `wake`; on a chip
whose wake delay is over, awake or asleep, `wake` leaves it awake and recovered, the array and WPEN, BP1, BP0 as they
were, and no rule broken (log 17, log 22). -/
def Obligations.SleepAndWakeMoveThePowerMode : Prop :=
  ∀ (s : State), s.EnvOk → s.handle.bound = true → s.chip.pending = none → s.chip.lost = false →
    (s.chip.Ready → ∃ t, exec (.sleep true) s = .next t ∧
      t.chip = { s.chip with mode := .asleep, afterRead := false, csLevel := .high, mustWake := true }) ∧
    (s.chip.recovery = 0 → ∃ t, exec (.wake true) s = .next t ∧ t.chip.mode = .awake ∧ t.chip.recovery = 0 ∧
      t.chip.mem = s.chip.mem ∧ t.chip.sr &&& 0x8C#8 = s.chip.sr &&& 0x8C#8 ∧ t.chip.afterRead = false ∧
      t.chip.pending = none ∧ t.chip.mustWake = false ∧ t.chip.lost = false ∧
      t.audit.sleepRule = s.audit.sleepRule)

/-- The document's first property (T1): under ENV_OK, on a ready chip, a `write` followed by a `read` of the same
range returns the data, when no address of the range is protected. -/
def Obligations.WriteThenReadReturnsTheData : Prop :=
  ∀ (s : State) (addr len : Field32) (data : List Byte), s.EnvOk → s.chip.Ready → s.chip.Inv →
    s.handle.bound = true → rangeOK s.params.maxXferLen addr len = true → data.length = len.toNat →
    (∀ x, addr.toNat ≤ x → x < addr.toNat + len.toNat →
      isProtected s.params (setWel s.chip.sr true) x = false) →
    ∃ t u r, exec (.write true true addr len data) s = .next t ∧ exec (.read true true addr len) t = .next u ∧
      u.response = some r ∧ r.status = .ok ∧ r.data = data

/-- The document's third property (T3): `write` ends with the latch cleared, as a following `is_write_enabled`
says. -/
def Obligations.WriteEndsWithTheLatchCleared : Prop :=
  ∀ (s : State) (addr len : Field32) (data : List Byte), s.EnvOk → s.chip.Ready →
    s.handle.bound = true → rangeOK s.params.maxXferLen addr len = true → data.length = len.toNat →
    ∃ t u r, exec (.write true true addr len data) s = .next t ∧ exec (.isWriteEnabled true) t = .next u ∧
      u.response = some r ∧ r.status = .ok ∧ r.value = false

/-- The document's first scenario (S1): after a successful `init` an immediate `is_write_enabled` answers false,
whatever the handle, the latch and the level of chip-select were before. -/
def Obligations.InitEstablishesWriteProtection : Prop :=
  ∀ (s : State) (pin : Pin), s.EnvOk → s.chip.Ready →
    ∃ t u r, exec (.init true true true pin) s = .next t ∧ exec (.isWriteEnabled true) t = .next u ∧
      u.response = some r ∧ r.status = .ok ∧ r.value = false

/-- R122 (T5): `sleep` then `wake` succeed as a pair, with this trace, and the chip is ready again. -/
def Obligations.SleepThenWakeSucceedAsAPair : Prop :=
  ∀ (s : State), s.EnvOk → s.chip.Ready → s.handle.bound = true →
    ∃ t u r, exec (.sleep true) s = .next t ∧ exec (.wake true) t = .next u ∧
      u.trace = s.trace ++ (.req (.sleep true) :: frameEvents s.handle.csPin [sent [0xB9#8]] ++
        [.wait 100, .rsp .ok false none none, .req (.wake true)] ++
        frameEvents s.handle.csPin [sent [0xAB#8]] ++ [.wait 400, .rsp .ok false none none]) ∧
      u.response = some r ∧ r.status = .ok ∧ u.chip.Ready

/-- R157, U6: whatever calls of a `write` fail, each byte of the array is old or, inside the range, the byte to
be written; the bits WPEN, BP1 and BP0 keep their value. -/
def Obligations.FailedWriteLeavesBytesOldOrNew : Prop :=
  ∀ (s : State) (addr len : Field32) (data : List Byte), s.Answered → s.chip.Ready → s.chip.Inv →
    s.handle.bound = true → rangeOK s.params.maxXferLen addr len = true → data.length = len.toNat →
    ∃ t, exec (.write true true addr len data) s = .next t ∧
      (∀ x, Memory.read t.chip.mem x = Memory.read s.chip.mem x ∨
        (addr.toNat ≤ x ∧ x < addr.toNat + len.toNat ∧
          Memory.read t.chip.mem x = data.getD (x - addr.toNat) 0#8)) ∧
      t.chip.sr &&& 0x8C#8 = s.chip.sr &&& 0x8C#8

/-- R30, R19: no instruction but `write` and a WRITE frame changes a byte of the array of a chip used within its
rules, whatever calls fail. Within its rules: any instruction on a ready chip, and a Wake frame on a chip whose wake
delay is over (R49 (a), U3; log 17). -/
def Obligations.OnlyWritesChangeTheArray : Prop :=
  ∀ (i : Instr) (s : State), s.Answered → s.chip.pending = none → s.chip.lost = false →
    (s.chip.Ready ∨ ((opOf i = .wake ∨ opOf i = .cmdWake) ∧ s.chip.recovery = 0)) →
    opOf i ≠ .write → opOf i ≠ .cmdWrite →
    ∃ t, exec i s = .next t ∧ ∀ x, Memory.read t.chip.mem x = Memory.read s.chip.mem x

/-- R191, R122, U3, R49 (a): any operation but a wake while the chip sleeps, its wake delay lasts or the host owes
it a `wake`, and a wake while the delay lasts, makes the events it would make on any other chip and answers OK all the
same. The chip's state means nothing from then on (log 16), and the run is marked (the model's own record, log 22),
but for a `wake` repeated after a failed one (spec/92_eei_decisions.md D12). -/
def Obligations.CommandToASleepingChipIsMarked : Prop :=
  ∀ (i : Instr) (s : State), s.CallsSucceed → (planOf i s).valid = true → s.chip.pending = none →
    s.chip.lost = false →
    (if opOf i = .wake ∨ opOf i = .cmdWake then 0 < s.chip.recovery
      else s.chip.mode = .asleep ∨ 0 < s.chip.recovery ∨ s.chip.mustWake = true) →
    ∃ t r l, exec i s = .next t ∧ t.trace = s.trace ++ l ∧ t.response = some r ∧ r.status = .ok ∧
      t.chip.lost = true ∧
      (¬((opOf i = .wake ∨ opOf i = .cmdWake) ∧ s.audit.wakeFailed = true) → t.audit.sleepRule = true) ∧
      ((opOf i = .wake ∨ opOf i = .cmdWake) ∧ s.audit.wakeFailed = true →
        t.audit.sleepRule = s.audit.sleepRule) ∧
      ∀ c : Chip, ∃ t' l', exec i (s.setChip c) = .next t' ∧ t'.trace = s.trace ++ l' ∧
        l.map Event.shape = l'.map Event.shape

/-- R192, U4, R131 (c) (program P6): right after a `read` each of the four operations that read the status register
is performed and answered OK, and the run is marked; every other host operation, `write_status_register` among
them, is not marked there, and one of them that sends a frame other than READ and leaves the chip awake makes a
status read after it legal. The mark is the model's own record (log 22). -/
def Obligations.StatusReadRightAfterAReadIsMarked : Prop :=
  ∀ (s : State) (addr len : Field32), s.EnvOk → s.chip.Ready → s.handle.bound = true →
    rangeOK s.params.maxXferLen addr len = true → s.audit.readRule = false →
    ∃ t, exec (.read true true addr len) s = .next t ∧
      (∀ q, readsStatus (opOf q) = true → (planOf q t).valid = true →
        ∃ u r b v sr, exec q t = .next u ∧ u.response = some r ∧ r.status = .ok ∧ u.audit.readRule = true ∧
          u.trace = t.trace ++ (.req q :: frameEvents t.handle.csPin [sent [0x05#8], exchanged [0x00#8] [b]] ++
            [.rsp .ok v sr none])) ∧
      (∀ i, i.space = .host → i.wellFormed = true → (planOf i t).valid = true → readsStatus (opOf i) = false →
        ∃ u, exec i t = .next u ∧ u.audit.readRule = false) ∧
      (∀ i q, opOf i = .writeEnable ∨ opOf i = .writeDisable ∨ opOf i = .init ∨ opOf i = .write ∨
          opOf i = .writeStatusRegister ∨ opOf i = .wake →
        i.wellFormed = true → (planOf i t).valid = true → readsStatus (opOf q) = true →
        (planOf q t).valid = true →
        ∃ u w r, exec i t = .next u ∧ exec q u = .next w ∧ w.response = some r ∧ r.status = .ok ∧
          w.audit.readRule = false)

/-! ## Invariants -/

/-- The invariants hold right after reset. -/
def Obligations.InvariantsHoldAtReset : Prop :=
  State.reset.chip.Inv ∧ State.reset.FramerInv ∧ State.reset.WireInv

/-- R40, R17: every step keeps the array in canonical form inside its 2^19 addresses and the reserved status bits
0, whatever the environment does. -/
def Obligations.StepKeepsTheChipInvariant : Prop :=
  ∀ s t : State, s.chip.Inv → step s = .next t → t.chip.Inv

/-- R13, R14, R94, R82: every step keeps the framer's invariant, whatever the environment does. -/
def Obligations.StepKeepsTheFramerInvariant : Prop :=
  ∀ s t : State, s.FramerInv → step s = .next t → t.FramerInv

/-- R20, R19 (log 23): every step keeps the chip-select wire at the level of the handle's pin, whatever the
environment does: failed pin writes, another pin bound by a later `init`, calls left open, reset events. -/
def Obligations.StepKeepsTheWireOnItsPin : Prop :=
  ∀ s t : State, s.WireInv → step s = .next t → t.WireInv

/-! ## Pins, received bytes, failed status writes -/

/-- R19, R165, R193: an operation writes no pin but the handle's; every other pin of the GPIO space keeps its
level, and the handle's is unknown after a failed pin write and HIGH after an operation whose pin writes all
succeeded. -/
def Obligations.OnlyTheHandlesPinIsDriven : Prop :=
  ∀ (i : Instr) (s : State), s.Answered →
    ∃ t l, exec i s = .next t ∧ t.trace = s.trace ++ l ∧
      (∀ p lv ok, .pin p lv ok ∈ l → p = t.handle.csPin) ∧
      (∀ p, p ≠ t.handle.csPin → t.pinLevel p = s.pinLevel p) ∧
      ((∃ e ∈ l, e.pinFailed = true) → t.pinLevel t.handle.csPin = .unknown) ∧
      ((∀ e ∈ l, e.pinFailed = false) → (∃ e ∈ l, e.isCall = true) → t.pinLevel t.handle.csPin = .high) ∧
      ((∀ e ∈ l, e.isCall = false) → t.pins = s.pins)

/-- R9, R166: a transfer gives as many bytes as it sends when they are wanted, whether it succeeds or fails, and
none when they are not. -/
def Obligations.TransfersReceiveAsManyBytesAsTheySend : Prop :=
  ∀ (i : Instr) (s : State),
    ∃ t l, exec i s = .next t ∧ t.trace = s.trace ++ l ∧
      ∀ tx want ok rx, .xfer tx want ok rx ∈ l →
        (want = false → rx = none) ∧ (want = true → ∃ b, rx = some b ∧ b.length = tx.length)

/-- R157, U2, U6: whatever calls of a `write_status_register` fail, each of WPEN, BP1 and BP0 is old or the
value's bit, the reserved bits and the array keep their value. -/
def Obligations.FailedStatusWriteLeavesBitsOldOrNew : Prop :=
  ∀ (s : State) (v : Byte), s.Answered → s.chip.Ready → s.handle.bound = true →
    ∃ t, exec (.writeStatusRegister true v) s = .next t ∧ t.chip.mem = s.chip.mem ∧
      (∀ k, k = 7 ∨ k = 3 ∨ k = 2 →
        t.chip.sr.getLsbD k = s.chip.sr.getLsbD k ∨ t.chip.sr.getLsbD k = v.getLsbD k) ∧
      t.chip.sr &&& 0x71#8 = s.chip.sr &&& 0x71#8

/-- R191, R192, R48, R49 (a), U3, U4: breaches are marked at once, on a lost chip too (log 16, log 17, log 22). While a
`wake` is owed any other operation is marked, whatever its arguments and whatever the environment does. A select before
the wake delay has elapsed loses the chip, restarts the delay and is marked, even where a reset event cuts the frame
before its first byte, but for a `wake` repeated after a failed one (spec/92_eei_decisions.md D12). A status read right
after a READ is marked on any chip. -/
def Obligations.BrokenRulesAreMarkedAtOnce : Prop :=
  ∀ (i : Instr) (s : State),
    (s.chip.mustWake = true → (opOf i).wakes = false → ∃ t, exec i s = .next t ∧ t.audit.sleepRule = true) ∧
    (0 < s.chip.recovery → opOf i ≠ .init → (planOf i s).valid = true →
      ∀ ok rx e, s.env = .reply ok rx :: .reset :: e →
        ∃ t, exec i s = .next t ∧ t.chip.lost = true ∧ t.chip.recovery = 400 ∧
          ((opOf i).wakes = false ∨ s.audit.wakeFailed = false → t.audit.sleepRule = true)) ∧
    (s.chip.afterRead = true → s.chip.pending = none → s.CallsSucceed → readsStatus (opOf i) = true →
      (planOf i s).valid = true → ∃ t, exec i s = .next t ∧ t.audit.readRule = true)
end

