-- ==== Sys2Proof/Laws/Flags.lean ====
section
/-! SUPPORT. The status register's bits: the four tests as bit numbers (spec/10_state.md R17), and what each way
of changing the register leaves alone. -/

namespace Sys2Proof.Machine

/-- A one-bit mask tests that bit. -/
theorem srTest_bit (sr : Byte) (k : Nat) (hk : k < 8) : srTest sr (1#8 <<< k) = sr.getLsbD k := by
  have h : sr &&& (1#8 <<< k) = if sr.getLsbD k then 1#8 <<< k else 0#8 := by
    ext i hi
    by_cases hik : i = k
    · subst hik; cases hs : sr.getLsbD i <;> simp_all [BitVec.getElem_eq_testBit_toNat, BitVec.getLsbD]
    · cases sr.getLsbD k <;> simp <;> omega
  unfold srTest
  rw [h]
  have hne : ∀ k : Fin 8, 1#8 <<< k.val ≠ 0#8 := by decide
  have := hne ⟨k, hk⟩
  cases hs : sr.getLsbD k <;> simp_all

theorem srWelBit_eq (sr : Byte) : srWelBit sr = sr.getLsbD 1 := srTest_bit sr 1 (by decide)
theorem srBp0Bit_eq (sr : Byte) : srBp0Bit sr = sr.getLsbD 2 := srTest_bit sr 2 (by decide)
theorem srBp1Bit_eq (sr : Byte) : srBp1Bit sr = sr.getLsbD 3 := srTest_bit sr 3 (by decide)
theorem srWpenBit_eq (sr : Byte) : srWpenBit sr = sr.getLsbD 7 := srTest_bit sr 7 (by decide)

@[simp] theorem srWelBit_setWel (sr : Byte) (b : Bool) : srWelBit (setWel sr b) = b := by
  rw [srWelBit_eq]; cases b <;> simp [setWel]

@[simp] theorem setWel_setWel (sr : Byte) (b c : Bool) : setWel (setWel sr b) c = setWel sr c := by
  ext i hi; cases b <;> cases c <;> simp [setWel] <;> interval_cases i <;> simp

/-- Changing the latch leaves WPEN, BP1 and BP0 alone. -/
@[simp] theorem setWel_writable (sr : Byte) (b : Bool) : setWel sr b &&& 0x8C#8 = sr &&& 0x8C#8 := by
  ext i hi; cases b <;> (simp [setWel]; interval_cases i <;> simp)

/-- Changing the latch leaves the reserved bits alone. -/
@[simp] theorem setWel_reserved (sr : Byte) (b : Bool) : setWel sr b &&& 0x71#8 = sr &&& 0x71#8 := by
  ext i hi; cases b <;> (simp [setWel]; interval_cases i <;> simp)

/-- A status write leaves the reserved bits alone. -/
@[simp] theorem setWritable_reserved (sr v : Byte) : setWritable sr v &&& 0x71#8 = sr &&& 0x71#8 := by
  ext i hi; simp [setWritable]; interval_cases i <;> simp

/-- A status write takes WPEN, BP1 and BP0 from the value. -/
@[simp] theorem setWritable_writable (sr v : Byte) : setWritable sr v &&& 0x8C#8 = v &&& 0x8C#8 := by
  ext i hi; simp [setWritable]; interval_cases i <;> simp

@[simp] theorem srAfterWrsr_reserved (p : Params) (sr v : Byte) :
    srAfterWrsr p sr v &&& 0x71#8 = sr &&& 0x71#8 := by
  unfold srAfterWrsr; split <;> simp

@[simp] theorem freeSr_reserved (n : Nat) : freeSr n &&& 0x71#8 = 0#8 := by
  ext i hi; simp [freeSr]; interval_cases i <;> simp

/-- Nothing is protected while BP1 and BP0 are 0 (spec/20_memory.md R47). -/
theorem isProtected_of_clear (p : Params) (sr : Byte) (x : Nat) (h1 : srBp1Bit sr = false)
    (h0 : srBp0Bit sr = false) : isProtected p sr x = false := by
  simp [isProtected, h1, h0]

end Sys2Proof.Machine
end

