-- ==== Sys2Proof/Laws/Memory.lean ====
section
/-! SUPPORT. The array: read after write, and the canonical form kept by every memory operation. -/

namespace Sys2Proof.Machine

/-- Reading back what a store left, at every address, in a memory whose addresses rise. -/
theorem Memory.read_write (m : Memory) (a : Nat) (v : Byte) (x : Nat)
    (hm : List.Pairwise (fun p q : Host.Cell => p.1 < q.1) m) :
    Memory.read (Memory.write m a v) x = if x = a then v else Memory.read m x := by
  have miss : ∀ (l : Memory) (y : Nat), (∀ c ∈ l, y < c.1) → Memory.read l y = Memory.unlisted := by
    intro l
    induction l with
    | nil => intros; rfl
    | cons c l ih =>
      intro y h
      have h1 := h c (by simp)
      simp only [Memory.read]
      rw [if_neg (by omega)]
      exact ih y fun d hd => h d (by simp [hd])
  induction m with
  | nil =>
    simp only [Memory.write]
    split
    · next h => split <;> simp [Memory.read, h]
    · by_cases h : a = x <;> simp [Memory.read, h, eq_comm]
  | cons c m ih =>
    obtain ⟨k, b⟩ := c
    rw [List.pairwise_cons] at hm
    obtain ⟨hk, hm⟩ := hm
    simp only [Memory.write]
    by_cases h1 : a < k
    · rw [if_pos h1]
      by_cases h2 : v = Memory.unlisted
      · rw [if_pos h2]
        by_cases h3 : x = a
        · subst h3
          rw [if_pos rfl, h2]
          exact miss _ _ (by
            intro c hc
            rcases List.mem_cons.mp hc with rfl | hc
            · exact h1
            · have := hk c hc; simp only at this; omega)
        · rw [if_neg h3]
      · rw [if_neg h2]
        by_cases h3 : a = x
        · simp [Memory.read, h3]
        · simp [Memory.read, h3, Ne.symm h3]
    · rw [if_neg h1]
      by_cases h2 : k = a
      · subst h2
        rw [if_pos rfl]
        by_cases h3 : v = Memory.unlisted
        · rw [if_pos h3]
          by_cases h4 : x = k
          · subst h4; rw [if_pos rfl, h3]; exact miss _ _ hk
          · simp [Memory.read, h4, Ne.symm h4]
        · rw [if_neg h3]
          by_cases h4 : k = x
          · simp [Memory.read, h4]
          · simp [Memory.read, h4, Ne.symm h4]
      · rw [if_neg h2]
        simp only [Memory.read]
        by_cases h3 : k = x
        · subst h3; simp [h2]
        · rw [if_neg h3, if_neg h3, ih hm]

/-- Every entry a store leaves was there or is the stored one. -/
theorem Memory.mem_write {m : Memory} {a : Nat} {v : Byte} {c : Host.Cell} (h : c ∈ Memory.write m a v) :
    c ∈ m ∨ (c = (a, v) ∧ v ≠ Memory.unlisted) := by
  induction m with
  | nil =>
    simp only [Memory.write] at h
    split at h
    · simp at h
    · next hv => exact .inr ⟨by simpa using h, hv⟩
  | cons d m ih =>
    obtain ⟨k, b⟩ := d
    simp only [Memory.write] at h
    split at h
    · split at h
      · exact .inl h
      · next hv =>
        rcases List.mem_cons.mp h with h | h
        · exact .inr ⟨h, hv⟩
        · exact .inl h
    · split at h
      · split at h
        · exact .inl (by simp [h])
        · next hv =>
          rcases List.mem_cons.mp h with h | h
          · exact .inr ⟨h, hv⟩
          · exact .inl (by simp [h])
      · rcases List.mem_cons.mp h with h | h
        · exact .inl (by simp [h])
        · rcases ih h with h | h
          · exact .inl (by simp [h])
          · exact .inr h

/-- A store inside the array keeps the canonical form. -/
theorem Memory.wf_write {m : Memory} (h : Memory.wf m) {a : Nat} (ha : a < Config.addrSpaceBytes) (v : Byte) :
    Memory.wf (Memory.write m a v) := by
  constructor
  · obtain ⟨h, -⟩ := h
    induction m with
    | nil => simp only [Memory.write]; split <;> simp
    | cons c m ih =>
      obtain ⟨k, b⟩ := c
      obtain ⟨hk, hm⟩ := List.pairwise_cons.mp h
      simp only [Memory.write]
      split
      · next h1 =>
        split
        · exact h
        · refine List.pairwise_cons.mpr ⟨?_, h⟩
          intro c hc
          rcases List.mem_cons.mp hc with rfl | hc
          · exact h1
          · have := hk c hc; simp only at this ⊢; omega
      · split
        · next h1 h2 =>
          split
          · exact hm
          · subst h2; exact List.pairwise_cons.mpr ⟨hk, hm⟩
        · next h1 h2 =>
          refine List.pairwise_cons.mpr ⟨?_, ih hm⟩
          intro c hc
          rcases Memory.mem_write hc with hc | ⟨rfl, -⟩
          · exact hk c hc
          · simp only; omega
  · intro c hc
    rcases Memory.mem_write hc with hc | ⟨rfl, hv⟩
    · exact h.2 c hc
    · exact ⟨ha, hv⟩

/-- A payload that ends inside the array keeps the canonical form, whichever addresses take it. -/
theorem Memory.wf_writeN {take : Nat → Bool} {m : Memory} (h : Memory.wf m) {a : Nat} {d : List Byte}
    (ha : a + d.length ≤ Config.addrSpaceBytes) : Memory.wf (Memory.writeN take m a d) := by
  induction d generalizing m a with
  | nil => exact h
  | cons v d ih =>
    simp only [List.length_cons] at ha
    simp only [Memory.writeN]
    refine ih ?_ (by omega)
    split
    · exact Memory.wf_write h (by omega) v
    · exact h

/-- An array made of cells is in canonical form. -/
theorem Memory.wf_ofCells (cs : List Host.Cell) : Memory.wf (Memory.ofCells cs) := by
  induction cs with
  | nil => exact ⟨List.Pairwise.nil, by simp [Memory.ofCells]⟩
  | cons c cs ih => exact Memory.wf_write ih (Nat.mod_lt _ (by simp)) _

/-- Reading after a payload was stored: the payload byte where the address lies inside and takes it, the old
byte elsewhere. -/
theorem Memory.read_writeN (take : Nat → Bool) {m : Memory} (h : Memory.wf m) (a : Nat) (d : List Byte)
    (ha : a + d.length ≤ Config.addrSpaceBytes) (x : Nat) :
    Memory.read (Memory.writeN take m a d) x =
      if a ≤ x ∧ x < a + d.length ∧ take x = true then d.getD (x - a) 0#8 else Memory.read m x := by
  induction d generalizing m a with
  | nil =>
    simp only [Memory.writeN, List.length_nil, Nat.add_zero]
    rw [if_neg (by omega)]
  | cons v d ih =>
    simp only [List.length_cons] at ha ⊢
    simp only [Memory.writeN]
    have hw : Memory.wf (if take a = true then Memory.write m a v else m) := by
      split
      · exact Memory.wf_write h (by omega) v
      · exact h
    rw [ih hw (a + 1) (by omega)]
    by_cases hx : x = a
    · subst hx
      rw [if_neg (by omega)]
      by_cases ht : take x = true
      · simp [ht, Memory.read_write m x v x h.1]
      · simp [ht]
    · by_cases h1 : a + 1 ≤ x ∧ x < a + 1 + d.length ∧ take x = true
      · rw [if_pos h1, if_pos ⟨by omega, by omega, h1.2.2⟩, show x - a = (x - (a + 1)) + 1 by omega]
        simp
      · have h2 : ¬(a ≤ x ∧ x < a + (d.length + 1) ∧ take x = true) := fun h2 =>
          h1 ⟨by omega, by omega, h2.2.2⟩
        rw [if_neg h1, if_neg h2]
        split
        · rw [Memory.read_write m a v x h.1, if_neg hx]
        · rfl

@[simp] theorem Memory.readN_length (m : Memory) (a n : Nat) : (Memory.readN m a n).length = n := by
  induction n generalizing a with
  | zero => rfl
  | succ n ih => simp [Memory.readN, ih]

/-- Byte `i` of `MemRead(a, n)` is the byte at `a + i`. -/
theorem Memory.readN_getElem? (m : Memory) (a n i : Nat) :
    (Memory.readN m a n)[i]? = if i < n then some (Memory.read m (a + i)) else none := by
  induction n generalizing a i with
  | zero => simp [Memory.readN]
  | succ n ih =>
    cases i with
    | zero => simp [Memory.readN]
    | succ i =>
      simp only [Memory.readN, List.getElem?_cons_succ, ih, Nat.add_lt_add_iff_right]
      rw [show a + 1 + i = a + (i + 1) by omega]

end Sys2Proof.Machine
end

