-- ==== Sys2Proof/Laws/State.lean ====
section
/-! SUPPORT. One lemma per field per update of the state. -/

namespace Sys2Proof.Machine

@[simp] theorem State.setHandle_handle (s : State) (h : Handle) : (s.setHandle h).handle = h := rfl
@[simp] theorem State.setHandle_work (s : State) (h : Handle) : (s.setHandle h).work = s.work := rfl
@[simp] theorem State.setHandle_seq (s : State) (h : Handle) : (s.setHandle h).seq = s.seq := rfl
@[simp] theorem State.setHandle_response (s : State) (h : Handle) : (s.setHandle h).response = s.response := rfl
@[simp] theorem State.setHandle_chip (s : State) (h : Handle) : (s.setHandle h).chip = s.chip := rfl
@[simp] theorem State.setHandle_pins (s : State) (h : Handle) : (s.setHandle h).pins = s.pins := rfl
@[simp] theorem State.setHandle_params (s : State) (h : Handle) : (s.setHandle h).params = s.params := rfl
@[simp] theorem State.setHandle_host (s : State) (h : Handle) : (s.setHandle h).host = s.host := rfl
@[simp] theorem State.setHandle_env (s : State) (h : Handle) : (s.setHandle h).env = s.env := rfl
@[simp] theorem State.setHandle_draws (s : State) (h : Handle) : (s.setHandle h).draws = s.draws := rfl
@[simp] theorem State.setHandle_trace (s : State) (h : Handle) : (s.setHandle h).trace = s.trace := rfl
@[simp] theorem State.setHandle_audit (s : State) (h : Handle) : (s.setHandle h).audit = s.audit := rfl

@[simp] theorem State.setWork_handle (s : State) (w : Work) : (s.setWork w).handle = s.handle := rfl
@[simp] theorem State.setWork_work (s : State) (w : Work) : (s.setWork w).work = w := rfl
@[simp] theorem State.setWork_seq (s : State) (w : Work) : (s.setWork w).seq = s.seq := rfl
@[simp] theorem State.setWork_response (s : State) (w : Work) : (s.setWork w).response = s.response := rfl
@[simp] theorem State.setWork_chip (s : State) (w : Work) : (s.setWork w).chip = s.chip := rfl
@[simp] theorem State.setWork_pins (s : State) (w : Work) : (s.setWork w).pins = s.pins := rfl
@[simp] theorem State.setWork_params (s : State) (w : Work) : (s.setWork w).params = s.params := rfl
@[simp] theorem State.setWork_host (s : State) (w : Work) : (s.setWork w).host = s.host := rfl
@[simp] theorem State.setWork_env (s : State) (w : Work) : (s.setWork w).env = s.env := rfl
@[simp] theorem State.setWork_draws (s : State) (w : Work) : (s.setWork w).draws = s.draws := rfl
@[simp] theorem State.setWork_trace (s : State) (w : Work) : (s.setWork w).trace = s.trace := rfl
@[simp] theorem State.setWork_audit (s : State) (w : Work) : (s.setWork w).audit = s.audit := rfl

@[simp] theorem State.setSeq_handle (s : State) (q : Seq) : (s.setSeq q).handle = s.handle := rfl
@[simp] theorem State.setSeq_work (s : State) (q : Seq) : (s.setSeq q).work = s.work := rfl
@[simp] theorem State.setSeq_seq (s : State) (q : Seq) : (s.setSeq q).seq = q := rfl
@[simp] theorem State.setSeq_response (s : State) (q : Seq) : (s.setSeq q).response = s.response := rfl
@[simp] theorem State.setSeq_chip (s : State) (q : Seq) : (s.setSeq q).chip = s.chip := rfl
@[simp] theorem State.setSeq_pins (s : State) (q : Seq) : (s.setSeq q).pins = s.pins := rfl
@[simp] theorem State.setSeq_params (s : State) (q : Seq) : (s.setSeq q).params = s.params := rfl
@[simp] theorem State.setSeq_host (s : State) (q : Seq) : (s.setSeq q).host = s.host := rfl
@[simp] theorem State.setSeq_env (s : State) (q : Seq) : (s.setSeq q).env = s.env := rfl
@[simp] theorem State.setSeq_draws (s : State) (q : Seq) : (s.setSeq q).draws = s.draws := rfl
@[simp] theorem State.setSeq_trace (s : State) (q : Seq) : (s.setSeq q).trace = s.trace := rfl
@[simp] theorem State.setSeq_audit (s : State) (q : Seq) : (s.setSeq q).audit = s.audit := rfl

@[simp] theorem State.setResponse_handle (s : State) (r : Option Response) : (s.setResponse r).handle = s.handle := rfl
@[simp] theorem State.setResponse_work (s : State) (r : Option Response) : (s.setResponse r).work = s.work := rfl
@[simp] theorem State.setResponse_seq (s : State) (r : Option Response) : (s.setResponse r).seq = s.seq := rfl
@[simp] theorem State.setResponse_response (s : State) (r : Option Response) : (s.setResponse r).response = r := rfl
@[simp] theorem State.setResponse_chip (s : State) (r : Option Response) : (s.setResponse r).chip = s.chip := rfl
@[simp] theorem State.setResponse_pins (s : State) (r : Option Response) : (s.setResponse r).pins = s.pins := rfl
@[simp] theorem State.setResponse_params (s : State) (r : Option Response) : (s.setResponse r).params = s.params := rfl
@[simp] theorem State.setResponse_host (s : State) (r : Option Response) : (s.setResponse r).host = s.host := rfl
@[simp] theorem State.setResponse_env (s : State) (r : Option Response) : (s.setResponse r).env = s.env := rfl
@[simp] theorem State.setResponse_draws (s : State) (r : Option Response) : (s.setResponse r).draws = s.draws := rfl
@[simp] theorem State.setResponse_trace (s : State) (r : Option Response) : (s.setResponse r).trace = s.trace := rfl
@[simp] theorem State.setResponse_audit (s : State) (r : Option Response) : (s.setResponse r).audit = s.audit := rfl

@[simp] theorem State.setChip_handle (s : State) (c : Chip) : (s.setChip c).handle = s.handle := rfl
@[simp] theorem State.setChip_work (s : State) (c : Chip) : (s.setChip c).work = s.work := rfl
@[simp] theorem State.setChip_seq (s : State) (c : Chip) : (s.setChip c).seq = s.seq := rfl
@[simp] theorem State.setChip_response (s : State) (c : Chip) : (s.setChip c).response = s.response := rfl
@[simp] theorem State.setChip_chip (s : State) (c : Chip) : (s.setChip c).chip = c := rfl
@[simp] theorem State.setChip_pins (s : State) (c : Chip) : (s.setChip c).pins = s.pins := rfl
@[simp] theorem State.setChip_params (s : State) (c : Chip) : (s.setChip c).params = s.params := rfl
@[simp] theorem State.setChip_host (s : State) (c : Chip) : (s.setChip c).host = s.host := rfl
@[simp] theorem State.setChip_env (s : State) (c : Chip) : (s.setChip c).env = s.env := rfl
@[simp] theorem State.setChip_draws (s : State) (c : Chip) : (s.setChip c).draws = s.draws := rfl
@[simp] theorem State.setChip_trace (s : State) (c : Chip) : (s.setChip c).trace = s.trace := rfl
@[simp] theorem State.setChip_audit (s : State) (c : Chip) : (s.setChip c).audit = s.audit := rfl

@[simp] theorem State.setHost_handle (s : State) (h : List HostAct) : (s.setHost h).handle = s.handle := rfl
@[simp] theorem State.setHost_work (s : State) (h : List HostAct) : (s.setHost h).work = s.work := rfl
@[simp] theorem State.setHost_seq (s : State) (h : List HostAct) : (s.setHost h).seq = s.seq := rfl
@[simp] theorem State.setHost_response (s : State) (h : List HostAct) : (s.setHost h).response = s.response := rfl
@[simp] theorem State.setHost_chip (s : State) (h : List HostAct) : (s.setHost h).chip = s.chip := rfl
@[simp] theorem State.setHost_pins (s : State) (h : List HostAct) : (s.setHost h).pins = s.pins := rfl
@[simp] theorem State.setHost_params (s : State) (h : List HostAct) : (s.setHost h).params = s.params := rfl
@[simp] theorem State.setHost_host (s : State) (h : List HostAct) : (s.setHost h).host = h := rfl
@[simp] theorem State.setHost_env (s : State) (h : List HostAct) : (s.setHost h).env = s.env := rfl
@[simp] theorem State.setHost_draws (s : State) (h : List HostAct) : (s.setHost h).draws = s.draws := rfl
@[simp] theorem State.setHost_trace (s : State) (h : List HostAct) : (s.setHost h).trace = s.trace := rfl
@[simp] theorem State.setHost_audit (s : State) (h : List HostAct) : (s.setHost h).audit = s.audit := rfl

@[simp] theorem State.setEnv_handle (s : State) (e : List Answer) : (s.setEnv e).handle = s.handle := rfl
@[simp] theorem State.setEnv_work (s : State) (e : List Answer) : (s.setEnv e).work = s.work := rfl
@[simp] theorem State.setEnv_seq (s : State) (e : List Answer) : (s.setEnv e).seq = s.seq := rfl
@[simp] theorem State.setEnv_response (s : State) (e : List Answer) : (s.setEnv e).response = s.response := rfl
@[simp] theorem State.setEnv_chip (s : State) (e : List Answer) : (s.setEnv e).chip = s.chip := rfl
@[simp] theorem State.setEnv_pins (s : State) (e : List Answer) : (s.setEnv e).pins = s.pins := rfl
@[simp] theorem State.setEnv_params (s : State) (e : List Answer) : (s.setEnv e).params = s.params := rfl
@[simp] theorem State.setEnv_host (s : State) (e : List Answer) : (s.setEnv e).host = s.host := rfl
@[simp] theorem State.setEnv_env (s : State) (e : List Answer) : (s.setEnv e).env = e := rfl
@[simp] theorem State.setEnv_draws (s : State) (e : List Answer) : (s.setEnv e).draws = s.draws := rfl
@[simp] theorem State.setEnv_trace (s : State) (e : List Answer) : (s.setEnv e).trace = s.trace := rfl
@[simp] theorem State.setEnv_audit (s : State) (e : List Answer) : (s.setEnv e).audit = s.audit := rfl

@[simp] theorem State.setAudit_handle (s : State) (a : Audit) : (s.setAudit a).handle = s.handle := rfl
@[simp] theorem State.setAudit_work (s : State) (a : Audit) : (s.setAudit a).work = s.work := rfl
@[simp] theorem State.setAudit_seq (s : State) (a : Audit) : (s.setAudit a).seq = s.seq := rfl
@[simp] theorem State.setAudit_response (s : State) (a : Audit) : (s.setAudit a).response = s.response := rfl
@[simp] theorem State.setAudit_chip (s : State) (a : Audit) : (s.setAudit a).chip = s.chip := rfl
@[simp] theorem State.setAudit_pins (s : State) (a : Audit) : (s.setAudit a).pins = s.pins := rfl
@[simp] theorem State.setAudit_params (s : State) (a : Audit) : (s.setAudit a).params = s.params := rfl
@[simp] theorem State.setAudit_host (s : State) (a : Audit) : (s.setAudit a).host = s.host := rfl
@[simp] theorem State.setAudit_env (s : State) (a : Audit) : (s.setAudit a).env = s.env := rfl
@[simp] theorem State.setAudit_draws (s : State) (a : Audit) : (s.setAudit a).draws = s.draws := rfl
@[simp] theorem State.setAudit_trace (s : State) (a : Audit) : (s.setAudit a).trace = s.trace := rfl
@[simp] theorem State.setAudit_audit (s : State) (a : Audit) : (s.setAudit a).audit = a := rfl

@[simp] theorem State.draw_handle (s : State) (k : Nat) : (s.draw k).handle = s.handle := rfl
@[simp] theorem State.draw_work (s : State) (k : Nat) : (s.draw k).work = s.work := rfl
@[simp] theorem State.draw_seq (s : State) (k : Nat) : (s.draw k).seq = s.seq := rfl
@[simp] theorem State.draw_response (s : State) (k : Nat) : (s.draw k).response = s.response := rfl
@[simp] theorem State.draw_chip (s : State) (k : Nat) : (s.draw k).chip = s.chip := rfl
@[simp] theorem State.draw_pins (s : State) (k : Nat) : (s.draw k).pins = s.pins := rfl
@[simp] theorem State.draw_params (s : State) (k : Nat) : (s.draw k).params = s.params := rfl
@[simp] theorem State.draw_host (s : State) (k : Nat) : (s.draw k).host = s.host := rfl
@[simp] theorem State.draw_env (s : State) (k : Nat) : (s.draw k).env = s.env := rfl
@[simp] theorem State.draw_draws (s : State) (k : Nat) : (s.draw k).draws = s.draws + k := rfl
@[simp] theorem State.draw_trace (s : State) (k : Nat) : (s.draw k).trace = s.trace := rfl
@[simp] theorem State.draw_audit (s : State) (k : Nat) : (s.draw k).audit = s.audit := rfl

@[simp] theorem State.emit_handle (s : State) (e : Event) : (s.emit e).handle = s.handle := rfl
@[simp] theorem State.emit_work (s : State) (e : Event) : (s.emit e).work = s.work := rfl
@[simp] theorem State.emit_seq (s : State) (e : Event) : (s.emit e).seq = s.seq := rfl
@[simp] theorem State.emit_response (s : State) (e : Event) : (s.emit e).response = s.response := rfl
@[simp] theorem State.emit_chip (s : State) (e : Event) : (s.emit e).chip = s.chip := rfl
@[simp] theorem State.emit_pins (s : State) (e : Event) : (s.emit e).pins = s.pins := rfl
@[simp] theorem State.emit_params (s : State) (e : Event) : (s.emit e).params = s.params := rfl
@[simp] theorem State.emit_host (s : State) (e : Event) : (s.emit e).host = s.host := rfl
@[simp] theorem State.emit_env (s : State) (e : Event) : (s.emit e).env = s.env := rfl
@[simp] theorem State.emit_draws (s : State) (e : Event) : (s.emit e).draws = s.draws := rfl
@[simp] theorem State.emit_trace (s : State) (e : Event) : (s.emit e).trace = s.trace ++ [e] := rfl
@[simp] theorem State.emit_audit (s : State) (e : Event) : (s.emit e).audit = s.audit := rfl

@[simp] theorem State.setFail_handle (s : State) (b : Bool) : (s.setFail b).handle = s.handle := rfl
@[simp] theorem State.setFail_work (s : State) (b : Bool) : (s.setFail b).work = { s.work with fail := b } := rfl
@[simp] theorem State.setFail_seq (s : State) (b : Bool) : (s.setFail b).seq = s.seq := rfl
@[simp] theorem State.setFail_response (s : State) (b : Bool) : (s.setFail b).response = s.response := rfl
@[simp] theorem State.setFail_chip (s : State) (b : Bool) : (s.setFail b).chip = s.chip := rfl
@[simp] theorem State.setFail_pins (s : State) (b : Bool) : (s.setFail b).pins = s.pins := rfl
@[simp] theorem State.setFail_params (s : State) (b : Bool) : (s.setFail b).params = s.params := rfl
@[simp] theorem State.setFail_host (s : State) (b : Bool) : (s.setFail b).host = s.host := rfl
@[simp] theorem State.setFail_env (s : State) (b : Bool) : (s.setFail b).env = s.env := rfl
@[simp] theorem State.setFail_draws (s : State) (b : Bool) : (s.setFail b).draws = s.draws := rfl
@[simp] theorem State.setFail_trace (s : State) (b : Bool) : (s.setFail b).trace = s.trace := rfl
@[simp] theorem State.setFail_audit (s : State) (b : Bool) : (s.setFail b).audit = s.audit := rfl

@[simp] theorem State.setPin_handle (s : State) (p : Pin) (l : CsLevel) : (s.setPin p l).handle = s.handle := rfl
@[simp] theorem State.setPin_work (s : State) (p : Pin) (l : CsLevel) : (s.setPin p l).work = s.work := rfl
@[simp] theorem State.setPin_seq (s : State) (p : Pin) (l : CsLevel) : (s.setPin p l).seq = s.seq := rfl
@[simp] theorem State.setPin_response (s : State) (p : Pin) (l : CsLevel) : (s.setPin p l).response = s.response := rfl
@[simp] theorem State.setPin_chip (s : State) (p : Pin) (l : CsLevel) : (s.setPin p l).chip = s.chip := rfl
@[simp] theorem State.setPin_pins (s : State) (p : Pin) (l : CsLevel) : (s.setPin p l).pins = s.pins.set p.toNat l p.isLt := rfl
@[simp] theorem State.setPin_params (s : State) (p : Pin) (l : CsLevel) : (s.setPin p l).params = s.params := rfl
@[simp] theorem State.setPin_host (s : State) (p : Pin) (l : CsLevel) : (s.setPin p l).host = s.host := rfl
@[simp] theorem State.setPin_env (s : State) (p : Pin) (l : CsLevel) : (s.setPin p l).env = s.env := rfl
@[simp] theorem State.setPin_draws (s : State) (p : Pin) (l : CsLevel) : (s.setPin p l).draws = s.draws := rfl
@[simp] theorem State.setPin_trace (s : State) (p : Pin) (l : CsLevel) : (s.setPin p l).trace = s.trace := rfl
@[simp] theorem State.setPin_audit (s : State) (p : Pin) (l : CsLevel) : (s.setPin p l).audit = s.audit := rfl

/-- A pin has the level it was last given, and the others keep theirs. -/
theorem State.pinLevel_setPin (s : State) (p q : Pin) (l : CsLevel) :
    (s.setPin p l).pinLevel q = if p = q then l else s.pinLevel q := by
  simp only [State.pinLevel, State.setPin, Vector.getElem_set, BitVec.toNat_inj]

end Sys2Proof.Machine
end

