-- ==== Sys2Proof/Laws/Ops.lean ====
section
/-! SUPPORT. What each shared operation over the state can do: asking the environment, accepting, responding,
failing, resetting. Field lemmas, so that later proofs do not unfold them. -/

namespace Sys2Proof.Machine

/-! Asking the environment. -/

/-- The success bit of the next answer: past the end of the script, success. -/
def headOk : List Answer → Bool
  | .reply ok _ :: _ => ok
  | _ => true

/-- The bytes the next answer forces: past the end of the script, none. -/
def headRx : List Answer → List Byte
  | .reply _ rx :: _ => rx
  | _ => []

/-- An environment that answers every call answers this one, and is left with the rest of its script. -/
theorem State.ask_answered {s : State} (h : s.Answered) :
    s.ask = .answer (headOk s.env) (headRx s.env) (s.setEnv s.env.tail) := by
  unfold State.ask
  rcases s with ⟨ha, w, q, r, c, pn, p, ho, e, d, t, a⟩
  rcases e with _ | ⟨_ | _ | _ | _, e⟩
  · rfl
  · rfl
  · simp [State.Answered, Answer.isReply] at h
  · simp [State.Answered, Answer.isReply] at h
  · simp [State.Answered, Answer.isReply] at h

/-- The four ways an environment can answer. -/
theorem State.ask_cases (s : State) :
    (∃ ok rx e, s.ask = .answer ok rx (s.setEnv e) ∧ (∀ a ∈ e, a ∈ s.env)) ∨
    (s.ask = .silent ∧ s.env.head? = some .silent) ∨
    (∃ e, s.ask = .tick (s.setEnv e) ∧ s.env = .tick :: e) ∨
    (∃ e, s.ask = .reset (s.setEnv e) ∧ s.env = .reset :: e) := by
  unfold State.ask
  rcases s with ⟨ha, w, q, r, c, pn, p, ho, e, d, t, a⟩
  rcases e with _ | ⟨⟨ok, rx⟩ | _ | _ | _, e⟩
  · exact .inl ⟨true, [], [], rfl, by simp⟩
  · exact .inl ⟨ok, rx, e, rfl, by intro a h; simp [h]⟩
  · exact .inr (.inl ⟨rfl, rfl⟩)
  · exact .inr (.inr (.inl ⟨e, rfl, rfl⟩))
  · exact .inr (.inr (.inr ⟨e, rfl, rfl⟩))

theorem State.Answered.tail {s : State} (h : s.Answered) : ∀ a ∈ s.env.tail, a.isReply = true :=
  fun a ha => h a (List.mem_of_mem_tail ha)

/-- Calls that succeed are answered. -/
theorem State.CallsSucceed.answered {s : State} (h : s.CallsSucceed) : s.Answered := by
  intro a ha
  have := h a ha
  cases a <;> simp_all [Answer.succeeds, Answer.isReply]

theorem State.CallsSucceed.headOk {s : State} (h : s.CallsSucceed) : headOk s.env = true := by
  rcases he : s.env with _ | ⟨a, e⟩
  · rfl
  · have := h a (by simp [he])
    cases a <;> simp_all [Answer.succeeds, Machine.headOk]

/-- `ENV_OK` makes every call succeed. -/
theorem State.EnvOk.callsSucceed {s : State} (h : s.EnvOk) : s.CallsSucceed := by
  intro a ha
  have := h a ha
  cases a <;> simp_all [Answer.succeeds, Answer.faithful]

theorem State.EnvOk.headRx {s : State} (h : s.EnvOk) : headRx s.env = [] := by
  rcases he : s.env with _ | ⟨a, e⟩
  · rfl
  · have := h a (by simp [he])
    cases a <;> simp_all [Answer.faithful, Machine.headRx]

/-! Responding. -/

@[simp] theorem State.respond_handle (s : State) (st v sr d) : (s.respond st v sr d).handle = s.handle := rfl
@[simp] theorem State.respond_work (s : State) (st v sr d) : (s.respond st v sr d).work = s.work := rfl
@[simp] theorem State.respond_seq (s : State) (st v sr d) : (s.respond st v sr d).seq = .idle := rfl
@[simp] theorem State.respond_pins (s : State) (st v sr d) : (s.respond st v sr d).pins = s.pins := rfl
@[simp] theorem State.respond_chip (s : State) (st v sr d) : (s.respond st v sr d).chip = s.chip := rfl
@[simp] theorem State.respond_params (s : State) (st v sr d) : (s.respond st v sr d).params = s.params := rfl
@[simp] theorem State.respond_host (s : State) (st v sr d) : (s.respond st v sr d).host = s.host := rfl
@[simp] theorem State.respond_env (s : State) (st v sr d) : (s.respond st v sr d).env = s.env := rfl
@[simp] theorem State.respond_audit (s : State) (st v sr d) : (s.respond st v sr d).audit = s.audit := rfl
@[simp] theorem State.respond_draws (s : State) (st v sr d) : (s.respond st v sr d).draws = s.draws + 1 := rfl
@[simp] theorem State.respond_trace (s : State) (st v sr d) :
    (s.respond st v sr d).trace = s.trace ++ [.rsp st v sr d] := rfl

/-- The response record: the named results where there are any, free values elsewhere (R68). -/
@[simp] theorem State.respond_response (s : State) (st v sr d) :
    (s.respond st v sr d).response = some
      { status := st, value := v, srOut := sr.getD (Config.freeByte s.draws),
        data := d.getD (Config.freeBytes s.draws) } := rfl

/-- The response of `return OK(...)` shows exactly the named result. -/
theorem State.respondOk_eq (s : State) (r : Result) :
    s.respondOk r = s.respond .ok (match r with | .value b => b | _ => false)
      (match r with | .sr b => some b | _ => none) (match r with | .data d => some d | _ => none) := by
  cases r <;> rfl

/-! The model's record of how an operation ended. -/

@[simp] theorem State.noteOutcome_handle (s : State) (op f) : (s.noteOutcome op f).handle = s.handle := rfl
@[simp] theorem State.noteOutcome_work (s : State) (op f) : (s.noteOutcome op f).work = s.work := rfl
@[simp] theorem State.noteOutcome_seq (s : State) (op f) : (s.noteOutcome op f).seq = s.seq := rfl
@[simp] theorem State.noteOutcome_response (s : State) (op f) : (s.noteOutcome op f).response = s.response := rfl
@[simp] theorem State.noteOutcome_pins (s : State) (op f) : (s.noteOutcome op f).pins = s.pins := rfl
@[simp] theorem State.noteOutcome_params (s : State) (op f) : (s.noteOutcome op f).params = s.params := rfl
@[simp] theorem State.noteOutcome_host (s : State) (op f) : (s.noteOutcome op f).host = s.host := rfl
@[simp] theorem State.noteOutcome_env (s : State) (op f) : (s.noteOutcome op f).env = s.env := rfl
@[simp] theorem State.noteOutcome_trace (s : State) (op f) : (s.noteOutcome op f).trace = s.trace := rfl
@[simp] theorem State.noteOutcome_draws (s : State) (op f) : (s.noteOutcome op f).draws = s.draws := rfl
@[simp] theorem State.noteOutcome_chip (s : State) (op f) : (s.noteOutcome op f).chip =
    { s.chip with mustWake := mustWakeAfter op f s.chip.mustWake } := rfl

/-- Only `sleep` and `wake`, or their frames on their own, answered OK change what the host owes the chip. -/
@[simp] theorem mustWakeAfter_failed (op : Op) (b : Bool) : mustWakeAfter op true b = b := rfl
theorem mustWakeAfter_same {op : Op} (h : op ≠ .sleep) (h' : op ≠ .wake) (k : op ≠ .cmdSleep) (k' : op ≠ .cmdWake)
    (f b : Bool) : mustWakeAfter op f b = b := by
  cases f <;> cases op <;> simp_all [mustWakeAfter]

/-! Accepting. -/

@[simp] theorem State.accept_handle (s : State) (i : Instr) : (s.accept i).handle = s.handle := rfl
@[simp] theorem State.accept_work (s : State) (i : Instr) :
    (s.accept i).work = { s.work with rq := some i } := rfl
@[simp] theorem State.accept_seq (s : State) (i : Instr) :
    (s.accept i).seq = .busy (opOf i) 0 .validate := rfl
@[simp] theorem State.accept_response (s : State) (i : Instr) : (s.accept i).response = none := rfl
@[simp] theorem State.accept_pins (s : State) (i : Instr) : (s.accept i).pins = s.pins := rfl
@[simp] theorem State.accept_chip (s : State) (i : Instr) : (s.accept i).chip = s.chip := rfl
@[simp] theorem State.accept_params (s : State) (i : Instr) : (s.accept i).params = s.params := rfl
@[simp] theorem State.accept_host (s : State) (i : Instr) : (s.accept i).host = s.host := rfl
@[simp] theorem State.accept_env (s : State) (i : Instr) : (s.accept i).env = s.env := rfl
@[simp] theorem State.accept_draws (s : State) (i : Instr) : (s.accept i).draws = s.draws := rfl
@[simp] theorem State.accept_trace (s : State) (i : Instr) : (s.accept i).trace = s.trace ++ [.req i] := rfl
@[simp] theorem State.accept_sleepRule (s : State) (i : Instr) : (s.accept i).audit.sleepRule =
    (s.audit.sleepRule || (s.chip.mustWake && !(opOf i).wakes)) := rfl
@[simp] theorem State.accept_readRule (s : State) (i : Instr) : (s.accept i).audit.readRule = s.audit.readRule := rfl
@[simp] theorem State.accept_wakeFailed (s : State) (i : Instr) : (s.accept i).audit.wakeFailed = s.audit.wakeFailed :=
  rfl
@[simp] theorem State.accept_pinFailed (s : State) (i : Instr) : (s.accept i).audit.pinFailed = false := rfl

/-! The failure exit (spec/60_exceptions.md R156). -/

/-- `raise InvalidArgument` is the response and nothing else. -/
theorem State.raiseInvalidArgument_eq (s : State) :
    s.raiseInvalidArgument = s.respond .invalidArgument false none none := rfl

@[simp] theorem State.raiseCapabilityFailure_handle (s : State) (op : Op) :
    (s.raiseCapabilityFailure op).handle = s.handle := by
  simp only [State.raiseCapabilityFailure, State.forgetLevel, State.residue]; split <;> split <;> simp
@[simp] theorem State.raiseCapabilityFailure_seq (s : State) (op : Op) :
    (s.raiseCapabilityFailure op).seq = .idle := by
  simp [State.raiseCapabilityFailure]
@[simp] theorem State.raiseCapabilityFailure_params (s : State) (op : Op) :
    (s.raiseCapabilityFailure op).params = s.params := by
  simp only [State.raiseCapabilityFailure, State.forgetLevel, State.residue]; split <;> split <;> simp
@[simp] theorem State.raiseCapabilityFailure_host (s : State) (op : Op) :
    (s.raiseCapabilityFailure op).host = s.host := by
  simp only [State.raiseCapabilityFailure, State.forgetLevel, State.residue]; split <;> split <;> simp
@[simp] theorem State.raiseCapabilityFailure_env (s : State) (op : Op) :
    (s.raiseCapabilityFailure op).env = s.env := by
  simp only [State.raiseCapabilityFailure, State.forgetLevel, State.residue]; split <;> split <;> simp
@[simp] theorem State.raiseCapabilityFailure_trace (s : State) (op : Op) :
    (s.raiseCapabilityFailure op).trace = s.trace ++ [.rsp .capabilityFailure false none none] := by
  simp only [State.raiseCapabilityFailure, State.forgetLevel, State.residue]; split <;> split <;> simp

/-- A CapabilityFailure touches no pin but the handle's. -/
theorem State.raiseCapabilityFailure_pinLevel (s : State) (op : Op) (p : Pin) :
    (s.raiseCapabilityFailure op).pinLevel p =
      if s.audit.pinFailed ∧ s.handle.csPin = p then .unknown else s.pinLevel p := by
  simp only [State.raiseCapabilityFailure, State.forgetLevel, State.residue]
  split <;> split <;>
    simp_all [State.pinLevel, State.setPin, Vector.getElem_set, BitVec.toNat_inj]

/-- A CapabilityFailure leaves the array alone; of the status register it can only make the latch free. -/
theorem State.raiseCapabilityFailure_chip (s : State) (op : Op) :
    ∃ b lv, (s.raiseCapabilityFailure op).chip =
      { s.chip with
        sr := if leavesLatch op then setWel s.chip.sr b else s.chip.sr
        csLevel := if s.audit.pinFailed then .unknown else lv } ∧ (lv = s.chip.csLevel) := by
  refine ⟨Config.freeBit s.draws, _, ?_, rfl⟩
  simp only [State.raiseCapabilityFailure, State.forgetLevel, State.residue]
  split <;> split <;> simp_all

/-! The reset event (spec/70_reset_and_hazards.md R181). -/

@[simp] theorem State.applyReset_bound (s : State) : s.applyReset.handle.bound = false := rfl
@[simp] theorem State.applyReset_gpioBound (s : State) : s.applyReset.handle.gpioBound = false := rfl
@[simp] theorem State.applyReset_spiBound (s : State) : s.applyReset.handle.spiBound = false := rfl
@[simp] theorem State.applyReset_seq (s : State) : s.applyReset.seq = .idle := rfl
@[simp] theorem State.applyReset_response (s : State) : s.applyReset.response = none := rfl
@[simp] theorem State.applyReset_params (s : State) : s.applyReset.params = s.params := rfl
@[simp] theorem State.applyReset_host (s : State) : s.applyReset.host = s.host := rfl
@[simp] theorem State.applyReset_env (s : State) : s.applyReset.env = s.env := rfl
@[simp] theorem State.applyReset_trace (s : State) : s.applyReset.trace = s.trace := rfl
@[simp] theorem State.applyReset_pins (s : State) : s.applyReset.pins = s.pins := rfl
@[simp] theorem State.applyReset_chip (s : State) : s.applyReset.chip =
    { s.chip with pending := s.chip.pending.map fun p => { p with cut := true } } := rfl

end Sys2Proof.Machine
end

