-- ==== Sys2Proof/Laws/Chip.lean ====
section
/-! SUPPORT. The reference chip: what its operations leave alone, and the invariant each of them keeps. -/

namespace Sys2Proof.Machine

/-- What the operations of the chip and the wire never touch: everything of the state but the chip, the numbering
of the free values and the run's record of broken preconditions. -/
structure ChipFrame (s t : State) : Prop where
  handle   : t.handle = s.handle
  work     : t.work = s.work
  seq      : t.seq = s.seq
  response : t.response = s.response
  pins     : t.pins = s.pins
  params   : t.params = s.params
  host     : t.host = s.host
  env      : t.env = s.env
  trace    : t.trace = s.trace
  initFailed : t.audit.initFailed = s.audit.initFailed
  initRule : t.audit.initRule = s.audit.initRule
  pinFailed : t.audit.pinFailed = s.audit.pinFailed

theorem ChipFrame.refl (s : State) : ChipFrame s s := by constructor <;> rfl

theorem ChipFrame.trans {s t u : State} (h : ChipFrame s t) (k : ChipFrame t u) : ChipFrame s u where
  handle := k.handle.trans h.handle
  work := k.work.trans h.work
  seq := k.seq.trans h.seq
  response := k.response.trans h.response
  pins := k.pins.trans h.pins
  params := k.params.trans h.params
  host := k.host.trans h.host
  env := k.env.trans h.env
  trace := k.trace.trans h.trace
  initFailed := k.initFailed.trans h.initFailed
  initRule := k.initRule.trans h.initRule
  pinFailed := k.pinFailed.trans h.pinFailed

theorem ChipFrame.setChip (s : State) (c : Chip) : ChipFrame s (s.setChip c) := by constructor <;> rfl
theorem ChipFrame.draw (s : State) (k : Nat) : ChipFrame s (s.draw k) := by constructor <;> rfl

theorem State.loseChip_frame (s : State) : ChipFrame s s.loseChip := by constructor <;> rfl
theorem State.breakSleepRule_frame (s : State) (w : Bool) : ChipFrame s (s.breakSleepRule w) := by constructor <;> rfl
theorem State.breakFrameRule_frame (s : State) : ChipFrame s s.breakFrameRule := by constructor <;> rfl
theorem State.breakReadRule_frame (s : State) : ChipFrame s s.breakReadRule := by constructor <;> rfl

theorem State.frameEffect_frame (s : State) (c : Command) : ChipFrame s (s.frameEffect c) := by
  cases c <;> simp only [State.frameEffect] <;> (try split) <;> constructor <;> rfl

theorem State.cutEffect_frame (s : State) (c : Command) : ChipFrame s (s.cutEffect c) := by
  cases c <;> simp only [State.cutEffect] <;> (try split) <;> constructor <;> rfl

theorem State.ifLost_frame (s : State) : ChipFrame s s.ifLost := by
  unfold State.ifLost
  split
  · exact s.loseChip_frame
  · exact .refl s

theorem State.takeFrame_frame {effect : State → Command → State} (he : ∀ s c, ChipFrame s (effect s c))
    (s : State) (bytes : List Byte) : ChipFrame s (s.takeFrame effect bytes) := by
  unfold State.takeFrame
  split
  · exact .refl s
  · split
    · exact s.breakFrameRule_frame
    · refine .trans ?_ (State.ifLost_frame _)
      split
      · exact .trans (s.breakSleepRule_frame _) (he _ _)
      · exact he s _

theorem State.wholeFrame_frame (s : State) (bytes : List Byte) : ChipFrame s (s.wholeFrame bytes) :=
  s.takeFrame_frame State.frameEffect_frame bytes

theorem State.cutFrame_frame (s : State) (bytes : List Byte) : ChipFrame s (s.cutFrame bytes) :=
  s.takeFrame_frame State.cutEffect_frame _

theorem State.redrawFrame_frame (s : State) (bytes : List Byte) : ChipFrame s (s.redrawFrame bytes) := by
  unfold State.redrawFrame
  split
  · exact .refl s
  · exact .trans (s.cutEffect_frame _) (State.ifLost_frame _)

theorem State.endFrame_frame (s : State) (p : Pending) (ok : Bool) : ChipFrame s (s.endFrame p ok) := by
  unfold State.endFrame
  split
  · exact s.redrawFrame_frame _
  · split
    · exact s.cutFrame_frame _
    · exact s.wholeFrame_frame _

theorem State.restartDelay_frame (s : State) : ChipFrame s s.restartDelay := .setChip _ _

theorem State.joinFrame_frame (s : State) : ChipFrame s s.joinFrame := by
  unfold State.joinFrame
  split
  · exact .refl s
  · split
    · exact .refl s
    · exact s.loseChip_frame

theorem State.beginFrame_frame (s : State) (fr : List Byte) : ChipFrame s (s.beginFrame fr) := by
  unfold State.beginFrame
  split
  · exact .trans (s.breakSleepRule_frame _) (State.restartDelay_frame _)
  · exact .refl s

theorem State.doubtHigh_frame (s : State) (ok : Bool) : ChipFrame s (s.doubtHigh ok) := by
  unfold State.doubtHigh
  split
  · exact .trans s.loseChip_frame (State.restartDelay_frame _)
  · exact .refl s

theorem State.driveLow_frame (s : State) (ok : Bool) (fr : List Byte) : ChipFrame s (s.driveLow ok fr) :=
  (s.joinFrame_frame.trans (s.joinFrame.beginFrame_frame fr)).trans (.setChip _ _)

theorem State.driveHigh_frame (s : State) (ok : Bool) : ChipFrame s (s.driveHigh ok) := by
  unfold State.driveHigh
  refine .trans ?_ (.setChip _ _)
  split
  · exact s.doubtHigh_frame ok
  · exact s.endFrame_frame _ ok

theorem State.chipTakes_frame (s : State) (tx : List Byte) (ok : Bool) : ChipFrame s (s.chipTakes tx ok) := by
  unfold State.chipTakes
  split
  · exact .setChip _ _
  · exact s.breakFrameRule_frame

theorem State.elapse_frame (s : State) (us : Nat) : ChipFrame s (s.elapse us) := .setChip _ _

/-! Where nothing is open, no delay runs and the chip is not lost, the special cases fall away. -/

theorem State.joinFrame_of_none {s : State} (h : s.chip.pending = none) : s.joinFrame = s := by
  simp [State.joinFrame, h]
theorem State.beginFrame_of_recovered {s : State} (h : s.chip.recovery = 0) (fr : List Byte) : s.beginFrame fr = s := by
  simp [State.beginFrame, h]
theorem State.doubtHigh_of_recovered {s : State} (h : s.chip.recovery = 0) (ok : Bool) : s.doubtHigh ok = s := by
  simp [State.doubtHigh, h]
@[simp] theorem State.doubtHigh_true (s : State) : s.doubtHigh true = s := rfl
theorem State.ifLost_of_known {s : State} (h : s.chip.lost = false) : s.ifLost = s := by
  simp [State.ifLost, h]
@[simp] theorem State.loseChip_lost (s : State) : s.loseChip.chip.lost = true := rfl
@[simp] theorem State.loseChip_recovery (s : State) : s.loseChip.chip.recovery = s.chip.recovery := rfl
@[simp] theorem State.loseChip_afterRead (s : State) : s.loseChip.chip.afterRead = s.chip.afterRead := rfl
@[simp] theorem State.loseChip_mustWake (s : State) : s.loseChip.chip.mustWake = s.chip.mustWake := rfl

/-- A lost chip stays lost, whatever a frame does to it. -/
theorem State.frameEffect_lost (s : State) (c : Command) : (s.frameEffect c).chip.lost = s.chip.lost := by
  cases c <;> simp only [State.frameEffect] <;> (try split) <;> rfl
theorem State.cutEffect_lost (s : State) (c : Command) : (s.cutEffect c).chip.lost = s.chip.lost := by
  cases c <;> simp only [State.cutEffect] <;> (try split) <;> rfl

/-! The level of chip-select, and the frame under way, after a pin write. -/

@[simp] theorem State.driveLow_csLevel (s : State) (ok : Bool) (fr : List Byte) :
    (s.driveLow ok fr).chip.csLevel = if ok then .low else .unknown := rfl
@[simp] theorem State.driveLow_pending (s : State) (ok : Bool) (fr : List Byte) :
    (s.driveLow ok fr).chip.pending = some (if ok then ⟨[], false, false⟩ else ⟨fr, true, false⟩) := rfl
@[simp] theorem State.driveHigh_csLevel (s : State) (ok : Bool) :
    (s.driveHigh ok).chip.csLevel = if ok then .high else .unknown := rfl

/-! Received bytes are as many as the bytes sent (spec/60_exceptions.md R166). -/

@[simp] theorem drawBytes_length (n k : Nat) : (drawBytes n k).length = k := by simp [drawBytes]

theorem overlay_length (a b : List Byte) : (overlay a b).length = b.length := by
  induction a generalizing b with
  | nil => rfl
  | cons x a ih => cases b <;> simp [overlay, ih]

/-! The commands a frame's content is read as (spec/20_memory.md R44). -/

/-- A decoded command's payload fits in the array. -/
theorem chipDecode_fits {bytes : List Byte} {c : Command} (h : chipDecode bytes = some c) :
    (∀ a n, c = .read a n → payloadFits a n = true) ∧ (∀ a d, c = .write a d → payloadFits a d.length = true) := by
  unfold chipDecode at h
  constructor <;> intro a n hc <;> subst hc <;> (repeat' split at h) <;> simp_all

/-! The invariant of the chip (`Chip.Inv`), kept by every operation of the chip and the wire. -/

theorem Chip.scramble_inv (c : Chip) (n : Nat) : (c.scramble n).Inv :=
  ⟨Memory.wf_ofCells _, freeSr_reserved n⟩

theorem State.frameEffect_inv {s : State} (h : s.chip.Inv) {c : Command}
    (hc : ∀ a d, c = .write a d → payloadFits a d.length = true) : (s.frameEffect c).chip.Inv := by
  cases c with
  | write a d =>
    have hf := hc a d rfl
    simp only [payloadFits, Bool.and_eq_true, decide_eq_true_eq] at hf
    refine ⟨?_, by simpa [State.frameEffect] using h.2⟩
    simp only [State.frameEffect, State.setChip_chip]
    split
    · exact Memory.wf_writeN h.1 hf.2
    · exact h.1
  | rdsr => simp only [State.frameEffect]; split <;> exact h
  | wrsr v =>
    simp only [State.frameEffect]
    split
    · exact ⟨h.1, freeSr_reserved _⟩
    · exact ⟨h.1, by simpa using h.2⟩
  | wake =>
    refine ⟨h.1, ?_⟩
    simp only [State.frameEffect, State.draw_chip, State.setChip_chip]
    split <;> simpa using h.2
  | wren => exact ⟨h.1, by simpa [State.frameEffect] using h.2⟩
  | wrdi => exact ⟨h.1, by simpa [State.frameEffect] using h.2⟩
  | read a n => exact h
  | sleep => exact h

theorem State.cutEffect_inv {s : State} (h : s.chip.Inv) {c : Command}
    (hc : ∀ a d, c = .write a d → payloadFits a d.length = true) : (s.cutEffect c).chip.Inv := by
  cases c with
  | write a d =>
    have hf := hc a d rfl
    simp only [payloadFits, Bool.and_eq_true, decide_eq_true_eq] at hf
    refine ⟨?_, by simpa [State.cutEffect] using h.2⟩
    simp only [State.cutEffect, State.draw_chip, State.setChip_chip]
    split
    · exact Memory.wf_writeN h.1 hf.2
    · exact h.1
  | rdsr => simp only [State.cutEffect]; split <;> exact h
  | wrsr v =>
    simp only [State.cutEffect]
    split
    · exact ⟨h.1, freeSr_reserved _⟩
    · refine ⟨h.1, ?_⟩
      simp only [State.draw_chip, State.setChip_chip]
      split <;> simpa using h.2
  | wake =>
    refine ⟨h.1, ?_⟩
    simp only [State.cutEffect, State.draw_chip, State.setChip_chip]
    split <;> simpa using h.2
  | wren => exact ⟨h.1, by simpa [State.cutEffect] using h.2⟩
  | wrdi => exact ⟨h.1, by simpa [State.cutEffect] using h.2⟩
  | read a n => exact h
  | sleep => exact h

theorem State.loseChip_inv (s : State) : s.loseChip.chip.Inv := Chip.scramble_inv s.chip _
theorem State.breakSleepRule_inv (s : State) (w : Bool) : (s.breakSleepRule w).chip.Inv := Chip.scramble_inv s.chip _

theorem State.ifLost_inv {s : State} (h : s.chip.Inv) : s.ifLost.chip.Inv := by
  unfold State.ifLost
  split
  · exact s.loseChip_inv
  · exact h

theorem State.takeFrame_inv {effect : State → Command → State}
    (he : ∀ {s : State}, s.chip.Inv → ∀ {c}, (∀ a d, c = .write a d → payloadFits a d.length = true) →
      (effect s c).chip.Inv) {s : State} (h : s.chip.Inv) (bytes : List Byte) :
    (s.takeFrame effect bytes).chip.Inv := by
  unfold State.takeFrame
  split
  · exact h
  · split
    · exact Chip.scramble_inv _ _
    · next c hc =>
      refine State.ifLost_inv (he ?_ (chipDecode_fits hc).2)
      split
      · exact s.breakSleepRule_inv _
      · exact h

theorem State.wholeFrame_inv {s : State} (h : s.chip.Inv) (bytes : List Byte) :
    (s.wholeFrame bytes).chip.Inv := State.takeFrame_inv State.frameEffect_inv h bytes

theorem State.cutFrame_inv {s : State} (h : s.chip.Inv) (bytes : List Byte) : (s.cutFrame bytes).chip.Inv :=
  State.takeFrame_inv State.cutEffect_inv h _

theorem State.redrawFrame_inv {s : State} (h : s.chip.Inv) (bytes : List Byte) :
    (s.redrawFrame bytes).chip.Inv := by
  unfold State.redrawFrame
  split
  · exact h
  · next c hc => exact State.ifLost_inv (State.cutEffect_inv h (chipDecode_fits hc).2)

theorem State.endFrame_inv {s : State} (h : s.chip.Inv) (p : Pending) (ok : Bool) :
    (s.endFrame p ok).chip.Inv := by
  unfold State.endFrame
  split
  · exact State.redrawFrame_inv h _
  · split
    · exact State.cutFrame_inv h _
    · exact State.wholeFrame_inv h _

theorem State.joinFrame_inv {s : State} (h : s.chip.Inv) : s.joinFrame.chip.Inv := by
  unfold State.joinFrame
  split
  · exact h
  · split
    · exact h
    · exact s.loseChip_inv

theorem State.beginFrame_inv {s : State} (h : s.chip.Inv) (fr : List Byte) : (s.beginFrame fr).chip.Inv := by
  unfold State.beginFrame
  split
  · exact s.breakSleepRule_inv _
  · exact h

theorem State.doubtHigh_inv {s : State} (h : s.chip.Inv) (ok : Bool) : (s.doubtHigh ok).chip.Inv := by
  unfold State.doubtHigh
  split
  · exact s.loseChip_inv
  · exact h

theorem State.driveLow_inv {s : State} (h : s.chip.Inv) (ok : Bool) (fr : List Byte) :
    (s.driveLow ok fr).chip.Inv := State.beginFrame_inv (State.joinFrame_inv h) fr

theorem State.driveHigh_inv {s : State} (h : s.chip.Inv) (ok : Bool) : (s.driveHigh ok).chip.Inv := by
  unfold State.driveHigh
  split
  · exact State.doubtHigh_inv h ok
  · exact State.endFrame_inv h _ ok

theorem State.chipTakes_inv {s : State} (h : s.chip.Inv) (tx : List Byte) (ok : Bool) :
    (s.chipTakes tx ok).chip.Inv := by
  unfold State.chipTakes
  split
  · exact h
  · exact Chip.scramble_inv _ _

theorem State.elapse_inv {s : State} (h : s.chip.Inv) (us : Nat) : (s.elapse us).chip.Inv := h

end Sys2Proof.Machine
end

