-- ==== Sys2Proof/Laws/Codec.lean ====
section
/-! SUPPORT. The fields of encodings, put together and taken apart. -/

namespace Sys2Proof

theorem field32_extract (w : Field32) :
    field32 (w.extractLsb' 24 8) (w.extractLsb' 16 8) (w.extractLsb' 8 8) (w.extractLsb' 0 8) = w := by
  unfold field32; ext i hi; interval_cases i <;> simp

theorem addrOf_extract (a : Addr) :
    addrOf ((a.setWidth 24).extractLsb' 16 8) ((a.setWidth 24).extractLsb' 8 8)
      ((a.setWidth 24).extractLsb' 0 8) = a := by
  unfold addrOf; ext i hi; interval_cases i <;> simp

/-- Bits 7:3 of the first address byte are zero (spec/30_encoding.md R61). -/
theorem addr_highBits (a : Addr) : (a.setWidth 24).extractLsb' 16 8 &&& 0xF8#8 = 0#8 := by
  ext i hi; interval_cases i <;> simp

theorem requestByte_op (op : BitVec 4) (h g s b : Bool) :
    (requestByte op h g s b).extractLsb' 0 4 = op := by
  unfold requestByte; ext i hi; interval_cases i <;> simp

theorem requestByte_h (op : BitVec 4) (h g s b : Bool) : (requestByte op h g s b)[4] = h := by
  simp [requestByte]

theorem requestByte_gpio (op : BitVec 4) (h g s b : Bool) : (requestByte op h g s b)[5] = g := by
  simp [requestByte]

theorem requestByte_spi (op : BitVec 4) (h g s b : Bool) : (requestByte op h g s b)[6] = s := by
  simp [requestByte]

theorem requestByte_buf (op : BitVec 4) (h g s b : Bool) : (requestByte op h g s b)[7] = b := by
  simp [requestByte]

end Sys2Proof
end

