-- ==== Sys2Proof/Laws/Sequencer.lean ====
section
/-! SUPPORT. The sequencer in an environment that answers every call: one equation per step of a micro-program,
the fields of the state after it, and how micro-programs put together run. -/

namespace Sys2Proof.Machine

/-! Micro-programs in sequence (spec/40_framing.md R92, R96): the second part runs only when the first has
finished. -/

theorem run_append (op : Op) (ms ns : List MStep) (s : State) :
    run op (ms ++ ns) s = match run op ms s with
      | .finished t => run op ns t
      | .failed t => .failed t
      | .held t => .held t := by
  induction ms generalizing s with
  | nil => rfl
  | cons m ms ih =>
    simp only [List.cons_append, run]
    split
    · exact ih _
    · rfl
    · rfl

/-! Pin writes and transfers: what they leave alone. -/

/-- A pin write shows one event, gives the handle's pin its level, and changes, besides, only what the chip and its
wire change and the record of failed pin writes. -/
structure PinFrame (s t : State) (l : Level) (ok : Bool) : Prop where
  handle   : t.handle = s.handle
  work     : t.work = s.work
  seq      : t.seq = s.seq
  response : t.response = s.response
  pins     : t.pins = (s.setPin s.handle.csPin (l.after ok)).pins
  params   : t.params = s.params
  host     : t.host = s.host
  env      : t.env = s.env
  trace    : t.trace = s.trace ++ [.pin s.handle.csPin l ok]
  csLevel  : t.chip.csLevel = l.after ok
  initFailed : t.audit.initFailed = s.audit.initFailed
  initRule : t.audit.initRule = s.audit.initRule
  pinFailed : t.audit.pinFailed = (s.audit.pinFailed || !ok)

/-- The state a pin write hands to the chip and the wire. -/
def State.pinWritten (s : State) (l : Level) (ok : Bool) : State :=
  ((s.setAudit { s.audit with pinFailed := s.audit.pinFailed || !ok }).setPin s.handle.csPin
    (l.after ok)).emit (.pin s.handle.csPin l ok)

theorem State.pinWrite_eq (s : State) (l : Level) (ok : Bool) (fr : List Byte) :
    s.pinWrite l ok fr =
      match l with
      | .low => (s.pinWritten l ok).driveLow ok fr
      | .high => (s.pinWritten l ok).driveHigh ok := rfl

theorem State.pinWrite_frame (s : State) (l : Level) (ok : Bool) (fr : List Byte) :
    PinFrame s (s.pinWrite l ok fr) l ok := by
  have done : ∀ t, ChipFrame (s.pinWritten l ok) t → t.chip.csLevel = l.after ok → PinFrame s t l ok :=
    fun t f h => ⟨f.handle, f.work, f.seq, f.response, f.pins, f.params, f.host, f.env, f.trace, h,
      f.initFailed, f.initRule, f.pinFailed⟩
  cases l
  · exact done _ (State.driveLow_frame _ ok fr) (by cases ok <;> rfl)
  · exact done _ (State.driveHigh_frame _ ok) (by cases ok <;> rfl)

@[simp] theorem State.pinWrite_low_csLevel (s : State) (ok : Bool) (fr : List Byte) :
    (s.pinWrite .low ok fr).chip.csLevel = if ok then .low else .unknown := rfl
@[simp] theorem State.pinWrite_low_pending (s : State) (ok : Bool) (fr : List Byte) :
    (s.pinWrite .low ok fr).chip.pending = some (if ok then ⟨[], false, false⟩ else ⟨fr, true, false⟩) := rfl
@[simp] theorem State.pinWrite_high_csLevel (s : State) (ok : Bool) (fr : List Byte) :
    (s.pinWrite .high ok fr).chip.csLevel = if ok then .high else .unknown := rfl

theorem State.pinWrite_inv {s : State} (h : s.chip.Inv) (l : Level) (ok : Bool) (fr : List Byte) :
    (s.pinWrite l ok fr).chip.Inv := by
  have hu : (s.pinWritten l ok).chip.Inv := h
  cases l
  · exact State.driveLow_inv hu ok fr
  · exact State.driveHigh_inv hu ok

/-- As many bytes are received as are sent. -/
theorem chipAnswer_length (c : Chip) (n : Nat) (tx : List Byte) : (chipAnswer c n tx).length = tx.length := by
  unfold chipAnswer
  split
  · simp
  · split
    · split
      · split <;> simp
      · split
        · next hd =>
          split
          · next hb =>
            subst hb
            simp only [List.length_append, drawBytes_length, Memory.readN_length, List.nil_append] at hd ⊢
            unfold chipDecode at hd
            (repeat' split at hd) <;> simp_all
            omega
          · simp
        · simp
    · simp

theorem received_length (s : State) (x : Xfer) (ok : Bool) (rx : List Byte) :
    (received s x ok rx).length = x.tx.length := by
  rw [received, overlay_length]; split
  · exact chipAnswer_length _ _ _
  · exact drawBytes_length _ _

/-- A transfer shows one event and changes, besides, FAIL, RXBUF, the chip, and the numbering of the free values. -/
structure XferFrame (s t : State) (x : Xfer) (ok : Bool) (rx : List Byte) : Prop where
  handle   : t.handle = s.handle
  work     : t.work = { s.work with
    fail := !ok, rxbuf := if x.wantRx then received s x ok rx else s.work.rxbuf }
  seq      : t.seq = s.seq
  response : t.response = s.response
  pins     : t.pins = s.pins
  params   : t.params = s.params
  host     : t.host = s.host
  env      : t.env = s.env
  trace    : t.trace = s.trace ++
    [.xfer x.tx x.wantRx ok (if x.wantRx then some (received s x ok rx) else none)]
  initFailed : t.audit.initFailed = s.audit.initFailed
  initRule : t.audit.initRule = s.audit.initRule
  pinFailed : t.audit.pinFailed = s.audit.pinFailed

/-- The state a transfer hands to the chip. -/
def State.rxStored (s : State) (x : Xfer) (ok : Bool) (rx : List Byte) : State :=
  ((if x.wantRx then s.setWork { s.work with rxbuf := received s x ok rx } else s).setFail (!ok)).draw x.tx.length

theorem State.transfer_eq (s : State) (x : Xfer) (ok : Bool) (rx : List Byte) :
    s.transfer x ok rx = ((s.rxStored x ok rx).chipTakes x.tx ok).emit
      (.xfer x.tx x.wantRx ok (if x.wantRx then some (received s x ok rx) else none)) := rfl

/-- Storing what was received changes RXBUF, FAIL and the numbering of the free values. -/
theorem State.rxStored_eq (s : State) (x : Xfer) (ok : Bool) (rx : List Byte) :
    s.rxStored x ok rx = (s.setWork { s.work with
      fail := !ok, rxbuf := if x.wantRx then received s x ok rx else s.work.rxbuf }).draw x.tx.length := by
  unfold State.rxStored; split <;> rfl

theorem State.transfer_frame (s : State) (x : Xfer) (ok : Bool) (rx : List Byte) :
    XferFrame s (s.transfer x ok rx) x ok rx := by
  rw [State.transfer_eq, State.rxStored_eq]
  obtain ⟨h1, h2, h3, h4, h5, h6, h7, h8, h9, h10, h11, h12⟩ :=
    State.chipTakes_frame ((s.setWork { s.work with
      fail := !ok, rxbuf := if x.wantRx then received s x ok rx else s.work.rxbuf }).draw x.tx.length) x.tx ok
  exact ⟨h1, h2, h3, h4, h5, h6, h7, h8, congrArg (· ++ _) h9, h10, h11, h12⟩

theorem State.transfer_inv {s : State} (h : s.chip.Inv) (x : Xfer) (ok : Bool) (rx : List Byte) :
    (s.transfer x ok rx).chip.Inv := by
  rw [State.transfer_eq, State.rxStored_eq]
  rw [State.emit_chip]
  exact State.chipTakes_inv (by rw [State.draw_chip, State.setWork_chip]; exact h) x.tx ok

/-- While chip-select is LOW a transfer only adds to the frame the chip has seen. -/
theorem State.transfer_chip (s : State) (x : Xfer) (ok : Bool) (rx : List Byte) (h : s.chip.csLevel = .low) :
    (s.transfer x ok rx).chip =
      { s.chip with
        pending := s.chip.pending.map fun p => { p with bytes := p.bytes ++ x.tx, cut := p.cut || !ok } } := by
  rw [State.transfer_eq, State.rxStored_eq, State.chipTakes]
  simp only [State.draw_chip, State.setWork_chip, h, if_true, State.emit_chip, State.setChip_chip]

/-! One equation per step, when the environment answers. -/

/-- The state after the select of a frame. -/
def State.selected (s : State) (op : Op) (k : Fin 3) (fr : List Byte) : State :=
  ((((s.setSeq (.busy op k .csLow)).setFail false).setEnv s.env.tail).pinWrite .low (headOk s.env) fr).setFail
    (!headOk s.env)

/-- The state after a transfer of a frame. -/
def State.transferred (s : State) (op : Op) (k : Fin 3) (st : Step) (x : Xfer) : State :=
  (((s.setSeq (.busy op k st)).setWork { s.work with txbuf := x.tx }).setEnv s.env.tail).transfer x
    (headOk s.env) (headRx s.env)

/-- The state after the deselect attempt of a frame, FAIL not yet touched. -/
def State.deselected (s : State) (op : Op) (k : Fin 3) (st : Step) : State :=
  ((s.setSeq (.busy op k st)).setEnv s.env.tail).pinWrite .high (headOk s.env) []

/-- The state after a wait. -/
def State.waited (s : State) (op : Op) (us : Nat) : State :=
  ((s.setSeq (.busy op 0 .wait)).setEnv s.env.tail).endWait us

theorem perform_csLow {s : State} (h : s.Answered) (op : Op) (k : Fin 3) (fr : List Byte) :
    perform op ⟨k, .csLow, .csLow fr⟩ s = .next (s.selected op k fr) := by
  have ha : (s.setSeq (.busy op k .csLow)).setFail false |>.Answered := h
  simp only [perform, State.ask_answered ha]
  rfl

theorem perform_xfer {s : State} (h : s.Answered) (op : Op) (k : Fin 3) (st : Step) (x : Xfer)
    (hf : s.work.fail = false) :
    perform op ⟨k, st, .xfer x⟩ s = .next (s.transferred op k st x) := by
  have ha : ((s.setSeq (.busy op k st)).setWork { s.work with txbuf := x.tx }).Answered := h
  have : perform op ⟨k, st, .xfer x⟩ s =
      match ((s.setSeq (.busy op k st)).setWork { s.work with txbuf := x.tx }).ask with
      | .answer ok rx u => .next (u.transfer x ok rx)
      | .silent => .hold ((s.setSeq (.busy op k st)).setWork { s.work with txbuf := x.tx })
      | .tick u => .hold u
      | .reset u => .hold u.applyReset := by
    simp only [perform]
    rw [if_neg (by simp [hf])]
    rfl
  rw [this, State.ask_answered ha]
  rfl

/-- A transfer is skipped once a call of the frame has failed (R81). -/
theorem perform_xfer_skipped (s : State) (op : Op) (k : Fin 3) (st : Step) (x : Xfer)
    (hf : s.work.fail = true) : perform op ⟨k, st, .xfer x⟩ s = .next s := by
  simp [perform, hf]

/-- The deselect attempt: on with the micro-program when no call of the frame has failed, to CapabilityFailure
otherwise (R83, R92). -/
theorem perform_csHigh {s : State} (h : s.Answered) (op : Op) (k : Fin 3) (st : Step) :
    perform op ⟨k, st, .csHigh⟩ s =
      if s.work.fail || !headOk s.env then .abort ((s.deselected op k st).setFail true)
      else .next (s.deselected op k st) := by
  have ha : (s.setSeq (.busy op k st)).Answered := h
  simp only [perform, State.ask_answered ha]
  rfl

theorem perform_csHigh0 {s : State} (h : s.Answered) (op : Op) (k : Fin 3) (st : Step) :
    perform op ⟨k, st, .csHigh0⟩ s =
      if headOk s.env then .next (s.deselected op k st) else .abort (s.deselected op k st) := by
  have ha : (s.setSeq (.busy op k st)).Answered := h
  simp only [perform, State.ask_answered ha]
  rfl

theorem perform_wait {s : State} (h : s.Answered) (op : Op) (us : Nat) :
    perform op (waitStep us) s = .next (s.waited op us) := by
  have ha : (s.atWait op us).Answered := h
  simp only [perform, waitStep, State.ask_answered ha]
  rfl

/-- A tick of the timebase at WAIT: the wait ends with the last one, and goes on with a smaller count before
(spec/60_exceptions.md R163). -/
theorem perform_wait_tick {s : State} {e : List Answer} (h : s.env = .tick :: e) (op : Op) (us : Nat) :
    perform op (waitStep us) s =
      if (s.atWait op us).work.dly ≤ 1 then .next (((s.atWait op us).setEnv e).endWait us)
      else .hold (((s.atWait op us).setEnv e).setDly ((s.atWait op us).work.dly - 1)) := by
  have ha : (s.atWait op us).ask = .tick ((s.atWait op us).setEnv e) := by
    simp only [State.ask, show (s.atWait op us).env = .tick :: e from h]
  simp only [perform, waitStep, ha]
  rfl

/-- The fields after a wait. -/
theorem State.waited_frame (s : State) (op : Op) (us : Nat) :
    let t := s.waited op us
    t.handle = s.handle ∧ t.pins = s.pins ∧ t.params = s.params ∧ t.host = s.host ∧ t.response = s.response ∧
      t.env = s.env.tail ∧ t.seq = .busy op 0 .wait ∧ t.work = { s.work with dly := 0 } ∧
      t.chip = (s.elapse us).chip ∧ t.trace = s.trace ++ [.wait us] :=
  ⟨rfl, rfl, rfl, rfl, rfl, rfl, rfl, rfl, rfl, rfl⟩

/-- The fields after a select. -/
theorem State.selected_frame (s : State) (op : Op) (k : Fin 3) (fr : List Byte) :
    let t := s.selected op k fr
    t.handle = s.handle ∧ t.pins = (s.setPin s.handle.csPin (Level.low.after (headOk s.env))).pins ∧
      t.params = s.params ∧ t.host = s.host ∧ t.response = s.response ∧
      t.env = s.env.tail ∧ t.seq = .busy op k .csLow ∧ t.work = { s.work with fail := !headOk s.env } ∧
      t.trace = s.trace ++ [.pin s.handle.csPin .low (headOk s.env)] := by
  obtain ⟨h1, h2, h3, h4, h0, h5, h6, h7, h8, -, -, -, -⟩ :=
    ((((s.setSeq (.busy op k .csLow)).setFail false).setEnv s.env.tail).pinWrite_frame .low (headOk s.env) fr)
  refine ⟨h1, h0, h5, h6, h4, h7, h3, ?_, h8⟩
  simp only [State.selected, State.setFail_work, h2]
  rfl

/-- The fields after a transfer. -/
theorem State.transferred_frame (s : State) (op : Op) (k : Fin 3) (st : Step) (x : Xfer) :
    let t := s.transferred op k st x
    let got := received s x (headOk s.env) (headRx s.env)
    t.handle = s.handle ∧ t.pins = s.pins ∧
      t.params = s.params ∧ t.host = s.host ∧ t.response = s.response ∧
      t.env = s.env.tail ∧ t.seq = .busy op k st ∧
      t.work = { s.work with
        txbuf := x.tx, fail := !headOk s.env,
        rxbuf := if x.wantRx then got else s.work.rxbuf } ∧
      t.trace = s.trace ++
        [.xfer x.tx x.wantRx (headOk s.env) (if x.wantRx then some got else none)] := by
  obtain ⟨h1, h2, h3, h4, h0, h5, h6, h7, h8, -, -, -⟩ :=
    (((s.setSeq (.busy op k st)).setWork { s.work with txbuf := x.tx }).setEnv s.env.tail).transfer_frame x
      (headOk s.env) (headRx s.env)
  exact ⟨h1, h0, h5, h6, h4, h7, h3, h2, h8⟩

/-- The fields after a deselect attempt. -/
theorem State.deselected_frame (s : State) (op : Op) (k : Fin 3) (st : Step) :
    let t := s.deselected op k st
    t.handle = s.handle ∧ t.pins = (s.setPin s.handle.csPin (Level.high.after (headOk s.env))).pins ∧
      t.params = s.params ∧ t.host = s.host ∧ t.response = s.response ∧
      t.env = s.env.tail ∧ t.seq = .busy op k st ∧ t.work = s.work ∧
      t.chip.csLevel = (if headOk s.env then .high else .unknown) ∧
      t.trace = s.trace ++ [.pin s.handle.csPin .high (headOk s.env)] := by
  obtain ⟨h1, h2, h3, h4, h0, h5, h6, h7, h8, -, -, -, -⟩ :=
    ((s.setSeq (.busy op k st)).setEnv s.env.tail).pinWrite_frame .high (headOk s.env) []
  exact ⟨h1, h0, h5, h6, h4, h7, h3, h2, rfl, h8⟩

/-! From a request to its response. -/

/-- A request whose check fails: the response InvalidArgument and nothing else (R95, spec/60_exceptions.md
R156). -/
theorem runPlan_invalid (i : Instr) (p : Plan) (s : State) (h : p.valid = false) :
    runPlan i p s = (s.accept i).respond .invalidArgument false none none := by
  simp [runPlan, checkAndRun, h, State.raiseInvalidArgument_eq]

/-- A request whose check passes runs its micro-program. -/
theorem runPlan_valid (i : Instr) (p : Plan) (s : State) (h : p.valid = true) :
    runPlan i p s = conclude (opOf i) p.result (run (opOf i) p.steps (p.prepare (s.accept i))) := by
  simp [runPlan, checkAndRun, h]

/-- Every instruction is its plan, run: no meaning faults or refuses. -/
theorem exec_eq (i : Instr) (s : State) : exec i s = .next (runPlan i (planOf i s) s) := by
  cases i <;> rfl

end Sys2Proof.Machine
end

