-- ==== Sys2Proof/Laws/Frame.lean ====
section
/-! SUPPORT. A frame in an environment where every call succeeds: its events, what it leaves alone, and the bytes it
receives. -/

namespace Sys2Proof.Machine

/-- A frame all of whose calls succeeded: the events it adds and what it leaves alone. -/
structure FrameDone (s t : State) (evs : List Event) : Prop where
  trace    : t.trace = s.trace ++ frameEvents s.handle.csPin evs
  handle   : t.handle = s.handle
  params   : t.params = s.params
  host     : t.host = s.host
  response : t.response = s.response
  level    : t.chip.csLevel = .high
  env      : ∀ a ∈ t.env, a ∈ s.env
  rq       : t.work.rq = s.work.rq
  a        : t.work.a = s.work.a

theorem State.CallsSucceed.of_subset {s t : State} (h : s.CallsSucceed) (ht : ∀ a ∈ t.env, a ∈ s.env) : t.CallsSucceed :=
  fun a ha => h a (ht a ha)

/-- A frame of one transfer, when every call succeeds (spec/40_framing.md R80). -/
theorem run_frame_one {s : State} (h : s.CallsSucceed) (op : Op) (k : Fin 3) (x : Xfer) :
    ∃ t rx, run op (frameSteps k [x]) s = .finished t ∧ rx.length = x.tx.length ∧
      FrameDone s t [.xfer x.tx x.wantRx true (if x.wantRx then some rx else none)] ∧
      t.work.rxbuf = if x.wantRx then rx else s.work.rxbuf := by
  set u := s.selected op k (content [x]) with hu
  obtain ⟨u1, -, u2, u3, u4, u5, -, u7, u8⟩ := s.selected_frame op k (content [x])
  rw [← hu] at u1 u2 u3 u4 u5 u7 u8
  rw [h.headOk] at u7 u8
  have hu' : u.CallsSucceed := State.CallsSucceed.of_subset h (by rw [u5]; exact fun a => List.mem_of_mem_tail)
  set v := u.transferred op k .xfer0 x with hv
  obtain ⟨v1, -, v2, v3, v4, v5, -, v7, v8⟩ := u.transferred_frame op k .xfer0 x
  rw [← hv] at v1 v2 v3 v4 v5 v7 v8
  rw [hu'.headOk] at v7 v8
  have hv' : v.CallsSucceed := State.CallsSucceed.of_subset hu' (by rw [v5]; exact fun a => List.mem_of_mem_tail)
  obtain ⟨w1, -, w2, w3, w4, w5, -, w7, w8, w9⟩ := v.deselected_frame op k .csHigh
  rw [hv'.headOk] at w8 w9
  refine ⟨v.deselected op k .csHigh, received u x true (headRx u.env), ?_, received_length _ _ _ _, ?_, ?_⟩
  · simp only [frameSteps, xferSteps, List.cons_append, List.nil_append, run]
    rw [perform_csLow h.answered]
    dsimp only
    rw [← hu, perform_xfer hu'.answered op k .xfer0 x (by rw [u7]; rfl)]
    dsimp only
    rw [← hv, perform_csHigh hv'.answered, hv'.headOk, v7]
    rfl
  · constructor
    · rw [w9, v8, u8, v1, u1]; simp [frameEvents]
    · rw [w1, v1, u1]
    · rw [w2, v2, u2]
    · rw [w3, v3, u3]
    · rw [w4, v4, u4]
    · exact w8
    · rw [w5, v5, u5]; exact fun a ha => List.mem_of_mem_tail (List.mem_of_mem_tail (List.mem_of_mem_tail ha))
    · rw [w7, v7, u7]
    · rw [w7, v7, u7]
  · rw [w7, v7, u7]

/-- A frame of two transfers, the first without receive, when every call succeeds (spec/40_framing.md R86). -/
theorem run_frame_two {s : State} (h : s.CallsSucceed) (op : Op) (k : Fin 3) (x y : Xfer) (hx : x.wantRx = false) :
    ∃ t rx, run op (frameSteps k [x, y]) s = .finished t ∧ rx.length = y.tx.length ∧
      FrameDone s t
        [.xfer x.tx false true none, .xfer y.tx y.wantRx true (if y.wantRx then some rx else none)] ∧
      t.work.rxbuf = if y.wantRx then rx else s.work.rxbuf := by
  set u := s.selected op k (content [x, y]) with hu
  obtain ⟨u1, -, u2, u3, u4, u5, -, u7, u8⟩ := s.selected_frame op k (content [x, y])
  rw [← hu] at u1 u2 u3 u4 u5 u7 u8
  rw [h.headOk] at u7 u8
  have hu' : u.CallsSucceed := State.CallsSucceed.of_subset h (by rw [u5]; exact fun a => List.mem_of_mem_tail)
  set v := u.transferred op k .xfer0 x with hv
  obtain ⟨v1, -, v2, v3, v4, v5, -, v7, v8⟩ := u.transferred_frame op k .xfer0 x
  rw [← hv] at v1 v2 v3 v4 v5 v7 v8
  rw [hu'.headOk, hx] at v7 v8
  have hv' : v.CallsSucceed := State.CallsSucceed.of_subset hu' (by rw [v5]; exact fun a => List.mem_of_mem_tail)
  set w := v.transferred op k .xfer1 y with hw
  obtain ⟨w1, -, w2, w3, w4, w5, -, w7, w8⟩ := v.transferred_frame op k .xfer1 y
  rw [← hw] at w1 w2 w3 w4 w5 w7 w8
  rw [hv'.headOk] at w7 w8
  have hw' : w.CallsSucceed := State.CallsSucceed.of_subset hv' (by rw [w5]; exact fun a => List.mem_of_mem_tail)
  obtain ⟨z1, -, z2, z3, z4, z5, -, z7, z8, z9⟩ := w.deselected_frame op k .csHigh
  rw [hw'.headOk] at z8 z9
  refine ⟨w.deselected op k .csHigh, received v y true (headRx v.env), ?_, received_length _ _ _ _, ?_, ?_⟩
  · simp only [frameSteps, xferSteps, List.cons_append, List.nil_append, run]
    rw [perform_csLow h.answered]
    dsimp only
    rw [← hu, perform_xfer hu'.answered op k .xfer0 x (by rw [u7]; rfl)]
    dsimp only
    rw [← hv, perform_xfer hv'.answered op k .xfer1 y (by rw [v7]; rfl)]
    dsimp only
    rw [← hw, perform_csHigh hw'.answered, hw'.headOk, w7]
    rfl
  · constructor
    · rw [z9, w8, v8, u8, w1, v1, u1]; simp [frameEvents]
    · rw [z1, w1, v1, u1]
    · rw [z2, w2, v2, u2]
    · rw [z3, w3, v3, u3]
    · rw [z4, w4, v4, u4]
    · exact z8
    · rw [z5, w5, v5, u5]
      exact fun a ha =>
        List.mem_of_mem_tail (List.mem_of_mem_tail (List.mem_of_mem_tail (List.mem_of_mem_tail ha)))
    · rw [z7, w7, v7, u7]
    · rw [z7, w7, v7, u7]
  · rw [z7, w7, v7, u7]; simp

end Sys2Proof.Machine
end

