-- ==== Sys2Proof/Laws/PerInstr.lean ====
section
/-! SUPPORT. Per-instruction facts. Family `HeadByte`: the first byte of an instruction's encoding carries the
match value of its row of spec/opcode_table.json, as the whole opcode byte of a frame (spec/30_encoding.md R62) or
as the select code in the low four bits of a request (R66; log 6). -/

namespace Sys2Proof.Laws.HeadByte

/-- The row's match value: the opcode of a frame, the select code of a host operation. -/
def rowMatch : Instr → Byte
  | .cmdWren => 0x06#8
  | .cmdWrdi => 0x04#8
  | .cmdRdsr => 0x05#8
  | .cmdWrsr _ => 0x01#8
  | .cmdRead _ _ => 0x03#8
  | .cmdWrite _ _ => 0x02#8
  | .cmdSleep => 0xB9#8
  | .cmdWake => 0xAB#8
  | .init _ _ _ _ => 0x00#8
  | .writeEnable _ => 0x01#8
  | .writeDisable _ => 0x02#8
  | .read _ _ _ _ => 0x03#8
  | .write _ _ _ _ _ => 0x04#8
  | .sleep _ => 0x05#8
  | .wake _ => 0x06#8
  | .readStatusRegister _ _ => 0x07#8
  | .writeStatusRegister _ _ => 0x08#8
  | .isWriteEnabled _ => 0x09#8
  | .isWriteProtected _ => 0x0A#8
  | .isBlockProtected _ _ => 0x0B#8

/-- The part of the first byte the row matches on. -/
def matched : Space → Byte → Byte
  | .spi, b => b
  | .host, b => b &&& 0x0F#8

/-- The first byte of the encoding carries the row's match value. -/
def Statement (i : Instr) : Prop := (encode i).head?.map (matched i.space) = some (rowMatch i)

/-- The select code of a request byte, as a byte. -/
theorem requestByte_code (op : BitVec 4) (h g s b : Bool) :
    requestByte op h g s b &&& 0x0F#8 = op.setWidth 8 := by
  unfold requestByte; ext i hi; interval_cases i <;> simp

/-- A request whose first byte is made by `requestByte`. -/
theorem ofRequest {i : Instr} {op : BitVec 4} {h g s b : Bool} {rest : List Byte} (hs : i.space = .host)
    (he : encode i = requestByte op h g s b :: rest) (hr : op.setWidth 8 = rowMatch i) : Statement i := by
  simp [Statement, he, hs, matched, requestByte_code, hr]

theorem cmdWren : Statement .cmdWren := rfl
theorem cmdWrdi : Statement .cmdWrdi := rfl
theorem cmdRdsr : Statement .cmdRdsr := rfl
theorem cmdWrsr (s : Byte) : Statement (.cmdWrsr s) := rfl
theorem cmdRead (a : Addr) (n : Nat) : Statement (.cmdRead a n) := rfl
theorem cmdWrite (a : Addr) (d : List Byte) : Statement (.cmdWrite a d) := rfl
theorem cmdSleep : Statement .cmdSleep := rfl
theorem cmdWake : Statement .cmdWake := rfl
theorem init (h gpio spi : Bool) (pin : Pin) : Statement (.init h gpio spi pin) := ofRequest rfl rfl rfl
theorem writeEnable (h : Bool) : Statement (.writeEnable h) := ofRequest rfl rfl rfl
theorem writeDisable (h : Bool) : Statement (.writeDisable h) := ofRequest rfl rfl rfl
theorem read (h buf : Bool) (addr len : Field32) : Statement (.read h buf addr len) := ofRequest rfl rfl rfl
theorem write (h buf : Bool) (addr len : Field32) (data : List Byte) : Statement (.write h buf addr len data) :=
  ofRequest rfl rfl rfl
theorem sleep (h : Bool) : Statement (.sleep h) := ofRequest rfl rfl rfl
theorem wake (h : Bool) : Statement (.wake h) := ofRequest rfl rfl rfl
theorem readStatusRegister (h buf : Bool) : Statement (.readStatusRegister h buf) := ofRequest rfl rfl rfl
theorem writeStatusRegister (h : Bool) (sr : Byte) : Statement (.writeStatusRegister h sr) :=
  ofRequest rfl rfl rfl
theorem isWriteEnabled (h : Bool) : Statement (.isWriteEnabled h) := ofRequest rfl rfl rfl
theorem isWriteProtected (h : Bool) : Statement (.isWriteProtected h) := ofRequest rfl rfl rfl
theorem isBlockProtected (h : Bool) (block : Byte) : Statement (.isBlockProtected h block) :=
  ofRequest rfl rfl rfl

end Sys2Proof.Laws.HeadByte
end

