-- ==== Sys2Proof/Tests/Slice0.lean ====
section
/-! SUPPORT. Tests: the well-formedness smoke, words written out from spec/30_encoding.md R61, R62 and R66, vectors
of spec/95_test_vectors.md, and one witness for the premises of each obligation that has any. -/

namespace Sys2Proof.Tests

open Sys2Proof.Machine

/-! ## Helpers -/

/-- The handle bound to pin 3, chip-select HIGH. -/
def bound : State :=
  { State.reset with
    handle := { gpioBound := true, spiBound := true, csPin := 3#8 },
    chip := { State.reset.chip with csLevel := .high },
    pins := State.reset.pins.set 3 .high }

/-- `bound` with a status register and a script of answers. -/
def chipWith (sr : Byte) (env : List Answer) : State :=
  { bound with chip := { bound.chip with sr := sr }, env := env }

/-- A success that forces the bytes received. -/
def good (rx : List Byte) : Answer := .reply true rx
/-- A failure. -/
def bad : Answer := .reply false []

/-- The state an outcome goes on to. -/
def nextOf : Host.Outcome State Fault Refusal → Option State
  | .next t => some t
  | .fault _ => none
  | .refused _ => none

/-- The events an instruction adds. -/
def eventsOf (i : Instr) (s : State) : Option (List Event) :=
  (nextOf (exec i s)).map fun t => t.trace.drop s.trace.length

/-- The response of an instruction: status and value. -/
def answerOf (i : Instr) (s : State) : Option (Status × Bool) :=
  (nextOf (exec i s)).bind fun t => t.response.map fun r => (r.status, r.value)

/-- The chip after an instruction. -/
def chipOf (i : Instr) (s : State) : Option Chip := (nextOf (exec i s)).map State.chip

/-- The handle after an instruction. -/
def handleOf (i : Instr) (s : State) : Option Handle := (nextOf (exec i s)).map State.handle

/-! ## Well-formedness: an ill-formed term for each check, refused -/

theorem smoke_read_frame_empty : (Instr.cmdRead 0#19 0).wellFormed = false := by decide
theorem smoke_read_frame_past_end : (Instr.cmdRead 0x7FFFF#19 2).wellFormed = false := by decide
theorem smoke_write_frame_empty : (Instr.cmdWrite 0#19 []).wellFormed = false := by decide
theorem smoke_write_frame_past_end : (Instr.cmdWrite 0x7FFFF#19 [1#8, 2#8]).wellFormed = false := by decide
theorem smoke_write_data_short : (Instr.write true true 0#32 2#32 [1#8]).wellFormed = false := by decide
theorem smoke_write_data_absent : (Instr.write true false 0#32 1#32 [1#8]).wellFormed = false := by decide

/-! ## Decoding: one word for each constructor, written out -/

/-- R62: opcode 0000 0110. -/
theorem test_decode_wren : decode .spi [0b00000110#8] = .ok .cmdWren := rfl
/-- R62: opcode 0000 0100. -/
theorem test_decode_wrdi : decode .spi [0b00000100#8] = .ok .cmdWrdi := rfl
/-- R61, FSR: opcode 0000 0101, one dummy byte. -/
theorem test_decode_rdsr : decode .spi [0b00000101#8, 0b00000000#8] = .ok .cmdRdsr := rfl
/-- R61, FSW: opcode 0000 0001, the status value. -/
theorem test_decode_wrsr : decode .spi [0b00000001#8, 0b10001000#8] = .ok (.cmdWrsr 0x88#8) := rfl
/-- R61, FAR: opcode 0000 0011, 00000 and 19 address bits, payload bytes (scenario P2). -/
theorem test_decode_read :
    decode .spi [0b00000011#8, 0b00000111#8, 0b11111111#8, 0b11111100#8, 0#8, 0#8, 0#8, 0#8] =
      .ok (.cmdRead 0x7FFFC#19 4) := rfl
/-- R61, FAW: opcode 0000 0010, 00000 and 19 address bits, payload (V-ENC row 0x12345). -/
theorem test_decode_write :
    decode .spi [0b00000010#8, 0b00000001#8, 0b00100011#8, 0b01000101#8, 0xAA#8, 0xBB#8] =
      .ok (.cmdWrite 0x12345#19 [0xAA#8, 0xBB#8]) := rfl
/-- R62: opcode 1011 1001. -/
theorem test_decode_sleep_frame : decode .spi [0b10111001#8] = .ok .cmdSleep := rfl
/-- R62: opcode 1010 1011. -/
theorem test_decode_wake_frame : decode .spi [0b10101011#8] = .ok .cmdWake := rfl
/-- R66, log 6: select code 0000, all present but the buffer; the pin. -/
theorem test_decode_init : decode .host [0b01110000#8, 3#8] = .ok (.init true true true 3#8) := rfl
/-- The second presence bit is the SPI capability's. -/
theorem test_decode_init_no_spi : decode .host [0b00110000#8, 3#8] = .ok (.init true true false 3#8) := rfl
theorem test_decode_write_enable : decode .host [0b00010001#8] = .ok (.writeEnable true) := rfl
theorem test_decode_write_disable : decode .host [0b00010010#8] = .ok (.writeDisable true) := rfl
/-- P2 request 4. -/
theorem test_decode_read_request :
    decode .host [0b10010011#8, 0#8, 7#8, 0xFF#8, 0xFC#8, 0#8, 0#8, 0#8, 4#8] =
      .ok (.read true true 0x0007FFFC#32 4#32) := rfl
/-- P2 request 1. -/
theorem test_decode_write_request :
    decode .host [0b10010100#8, 0#8, 7#8, 0xFF#8, 0xFC#8, 0#8, 0#8, 0#8, 4#8, 1#8, 2#8, 3#8, 4#8] =
      .ok (.write true true 0x0007FFFC#32 4#32 [1#8, 2#8, 3#8, 4#8]) := rfl
theorem test_decode_sleep : decode .host [0b00010101#8] = .ok (.sleep true) := rfl
theorem test_decode_wake : decode .host [0b00010110#8] = .ok (.wake true) := rfl
theorem test_decode_read_sr : decode .host [0b10010111#8] = .ok (.readStatusRegister true true) := rfl
theorem test_decode_write_sr : decode .host [0b00011000#8, 0x88#8] = .ok (.writeStatusRegister true 0x88#8) := rfl
theorem test_decode_is_write_enabled : decode .host [0b00011001#8] = .ok (.isWriteEnabled true) := rfl
theorem test_decode_is_write_protected : decode .host [0b00011010#8] = .ok (.isWriteProtected true) := rfl
theorem test_decode_is_block_protected : decode .host [0b00011011#8, 1#8] = .ok (.isBlockProtected true 1#8) := rfl

/-! Rejections: R65, R69, R61, R40. -/

theorem test_reject_opcode : decode .spi [0x9F#8] = .error (.unknownOpcode 0x9F#8) := rfl
theorem test_reject_length : decode .spi [0x06#8, 0#8] = .error .badLength := rfl
theorem test_reject_address_bits : decode .spi [0x03#8, 0x08#8, 0#8, 0#8, 0#8] = .error .addressBits := rfl
theorem test_reject_past_end : decode .spi [0x03#8, 7#8, 0xFF#8, 0xFF#8, 0#8, 0#8] = .error .pastEnd := rfl
theorem test_reject_reserved : decode .host [0x1C#8] = .error (.reservedOp 0xC#4) := rfl
theorem test_reject_truncated : decode .host [0x18#8] = .error .truncated := rfl

/-! The table's words (log 8). -/

theorem test_table_rdsr : decodeTableWord 16 0x0500 = some .cmdRdsr := rfl
theorem test_table_read : decodeTableWord 32 0x0307FFFF = some (.cmdRead 0x7FFFF#19 1) := rfl
theorem test_table_block : decodeTableWord 8 0x0B = some (.isBlockProtected false 0#8) := rfl
theorem test_table_wake : decodeTableWord 4 0x6 = some (.wake false) := rfl
theorem test_fetch_word :
    nextOf (step (State.reset.withFetchWord 16 0x0500)) = nextOf (exec .cmdRdsr State.reset) := rfl

/-! ## Encodings (V-ENC) and checks (V-RNG) -/

theorem test_addr_bytes :
    addrBytes 0x12345#19 = [0x01#8, 0x23#8, 0x45#8] ∧ addrBytes 0x7FFFC#19 = [0x07#8, 0xFF#8, 0xFC#8] := by decide

theorem test_range_true :
    rangeOK 0x80000 0#32 1#32 ∧ rangeOK 0x80000 0x7FFFF#32 1#32 ∧ rangeOK 0x80000 0#32 0x80000#32 ∧
      rangeOK 0x80000 0x3FFFF#32 0x40001#32 := by decide

theorem test_range_false :
    ¬rangeOK 0x80000 0#32 0#32 ∧ ¬rangeOK 0x80000 0x7FFFF#32 2#32 ∧ ¬rangeOK 0x80000 1#32 0x80000#32 ∧
      ¬rangeOK 0x80000 0xFFF80000#32 1#32 ∧ ¬rangeOK 0x80000 0xFFFFFFFF#32 2#32 ∧
      ¬rangeOK 0x80000 0x7FFFF#32 0xFFFFFFFF#32 ∧ ¬rangeOK 0x80 0x10#32 0x100#32 := by decide

/-! ## The operations, on vectors of spec/95_test_vectors.md -/

/-- V-INIT, row 1. -/
theorem test_init : eventsOf (.init true true true 3#8) State.reset =
    some [.req (.init true true true 3#8), .pin 3#8 .high true, .pin 3#8 .low true,
      .xfer [0x04#8] false true none, .pin 3#8 .high true, .rsp .ok false none none] := by decide

/-- V-INIT, "first pin write fails": CapabilityFailure, bound to pin 3 all the same. -/
theorem test_init_failed :
    eventsOf (.init true true true 3#8) { State.reset with env := [bad] } =
      some [.req (.init true true true 3#8), .pin 3#8 .high false, .rsp .capabilityFailure false none none] ∧
    handleOf (.init true true true 3#8) { State.reset with env := [bad] } = some ⟨true, true, 3#8⟩ := by decide

/-- V-WEL, row 1. -/
theorem test_write_enable : chipOf (.writeEnable true) bound = some (chipWith 0x02#8 []).chip := by decide

/-- V-WEL, "after reset": empty trace, InvalidArgument. -/
theorem test_write_enable_unbound : eventsOf (.writeEnable true) State.reset =
    some [.req (.writeEnable true), .rsp .invalidArgument false none none] := by decide

/-- V-FRM, "select fails, deselect fails". -/
theorem test_write_disable_failed : eventsOf (.writeDisable true) (chipWith 0#8 [bad, bad]) =
    some [.req (.writeDisable true), .pin 3#8 .low false, .pin 3#8 .high false,
      .rsp .capabilityFailure false none none] := by decide

/-- V-FRM, "transfer fails". -/
theorem test_write_disable_transfer_failed : eventsOf (.writeDisable true) (chipWith 0#8 [good [], bad]) =
    some [.req (.writeDisable true), .pin 3#8 .low true, .xfer [0x04#8] false false none, .pin 3#8 .high true,
      .rsp .capabilityFailure false none none] := by decide

/-- The chip of V-RD: AA BB at 0x10, 0x11. -/
def holding : State := { bound with chip := { bound.chip with mem := [(0x10, 0xAA#8), (0x11, 0xBB#8)] } }

/-- V-RD, row 1, the echo bytes forced to be seen. -/
theorem test_read :
    eventsOf (.read true true 0x10#32 2#32) { holding with env := [good [], good [1#8, 2#8, 3#8, 4#8]] } =
      some [.req (.read true true 0x10#32 2#32), .pin 3#8 .low true,
        .xfer [0x03#8, 0#8, 0#8, 0x10#8, 0#8, 0#8] true true (some [1#8, 2#8, 3#8, 4#8, 0xAA#8, 0xBB#8]),
        .pin 3#8 .high true, .rsp .ok false none (some [0xAA#8, 0xBB#8])] := by decide

/-- V-RD, "deselect fails": the bytes received are dropped. -/
theorem test_read_failed :
    answerOf (.read true true 0x10#32 2#32) { holding with env := [good [], good [], bad] } =
      some (.capabilityFailure, false) := by decide

/-- V-WR, row 1. -/
theorem test_write : eventsOf (.write true true 0x10#32 2#32 [0xAA#8, 0xBB#8]) bound =
    some [.req (.write true true 0x10#32 2#32 [0xAA#8, 0xBB#8]), .pin 3#8 .low true,
      .xfer [0x06#8] false true none, .pin 3#8 .high true, .pin 3#8 .low true,
      .xfer [0x02#8, 0#8, 0#8, 0x10#8, 0xAA#8, 0xBB#8] false true none, .pin 3#8 .high true, .pin 3#8 .low true,
      .xfer [0x04#8] false true none, .pin 3#8 .high true, .rsp .ok false none none] := by decide

/-- V-WR, row 1: MEM[0x10..0x11] = AA BB, WEL 0. -/
theorem test_write_chip :
    chipOf (.write true true 0x10#32 2#32 [0xAA#8, 0xBB#8]) bound = some holding.chip := by decide

/-- V-PWR, row 1. -/
theorem test_sleep : eventsOf (.sleep true) bound =
    some [.req (.sleep true), .pin 3#8 .low true, .xfer [0xB9#8] false true none, .pin 3#8 .high true,
      .wait 100, .rsp .ok false none none] := by decide

/-- V-PWR, "deselect fails": no wait. -/
theorem test_sleep_failed : eventsOf (.sleep true) (chipWith 0#8 [good [], good [], bad]) =
    some [.req (.sleep true), .pin 3#8 .low true, .xfer [0xB9#8] false true none, .pin 3#8 .high false,
      .rsp .capabilityFailure false none none] := by decide

/-- V-PWR, `wake`, row 1. -/
theorem test_wake : eventsOf (.wake true) bound =
    some [.req (.wake true), .pin 3#8 .low true, .xfer [0xAB#8] false true none, .pin 3#8 .high true,
      .wait 400, .rsp .ok false none none] := by decide

/-- V-SR: SR 0x8E. -/
theorem test_read_sr : eventsOf (.readStatusRegister true true) (chipWith 0x8E#8 []) =
    some [.req (.readStatusRegister true true), .pin 3#8 .low true, .xfer [0x05#8] false true none,
      .xfer [0x00#8] true true (some [0x8E#8]), .pin 3#8 .high true, .rsp .ok false (some 0x8E#8) none] := by
  decide

/-- V-FRM, RDSR, "first transfer fails": the second is not issued. -/
theorem test_read_sr_failed : eventsOf (.readStatusRegister true true) (chipWith 0#8 [good [], bad]) =
    some [.req (.readStatusRegister true true), .pin 3#8 .low true, .xfer [0x05#8] false false none,
      .pin 3#8 .high true, .rsp .capabilityFailure false none none] := by decide

/-- V-SR: `write_status_register(0xFF)` gives 0x8C. -/
theorem test_write_sr :
    chipOf (.writeStatusRegister true 0xFF#8) bound = some (chipWith 0x8C#8 []).chip := by decide

/-- V-SR: WEL cannot be written. -/
theorem test_write_sr_wel :
    chipOf (.writeStatusRegister true 0x02#8) bound = some bound.chip := by decide

/-- V-Q, received 0x02. -/
theorem test_is_write_enabled :
    answerOf (.isWriteEnabled true) (chipWith 0#8 [good [], good [], good [0x02#8]]) = some (.ok, true) := by decide

/-- V-Q, "deselect fails, received 0x02". -/
theorem test_is_write_enabled_failed :
    answerOf (.isWriteEnabled true) (chipWith 0x02#8 [good [], good [], good [], bad]) =
      some (.capabilityFailure, false) := by decide

/-- V-Q, received 0x80, and 0x71 (reserved bits only). -/
theorem test_is_write_protected :
    answerOf (.isWriteProtected true) (chipWith 0x80#8 []) = some (.ok, true) ∧
      answerOf (.isWriteProtected true) (chipWith 0#8 [good [], good [], good [0x71#8]]) = some (.ok, false) := by
  decide

/-- V-Q, 0x84 (as corrected by spec/90_conflicts.md C1). -/
theorem test_is_block_protected :
    answerOf (.isBlockProtected true 0#8) (chipWith 0x84#8 []) = some (.ok, true) ∧
      answerOf (.isBlockProtected true 1#8) (chipWith 0x84#8 []) = some (.ok, false) := by decide

/-- V-Q: block numbers 2, 5, 255. -/
theorem test_is_block_protected_invalid :
    answerOf (.isBlockProtected true 2#8) bound = some (.invalidArgument, false) ∧
      answerOf (.isBlockProtected true 5#8) bound = some (.invalidArgument, false) ∧
      answerOf (.isBlockProtected true 255#8) bound = some (.invalidArgument, false) := by decide

/-- R86 on its own (log 7): the frame of V-FRM. -/
theorem test_rdsr_frame : eventsOf .cmdRdsr (chipWith 0x02#8 []) =
    some [.req .cmdRdsr, .pin 3#8 .low true, .xfer [0x05#8] false true none,
      .xfer [0x00#8] true true (some [0x02#8]), .pin 3#8 .high true, .rsp .ok false (some 0x02#8) none] := by decide

/-- R46: a WRITE frame with the latch clear stores nothing. -/
theorem test_write_frame_latch_clear : chipOf (.cmdWrite 0x10#19 [0xAA#8]) bound = some bound.chip := by decide

/-- R47: at BP0 = 1 the range of the map keeps its bytes. -/
theorem test_write_protected :
    (chipOf (.write true true 0x10#32 2#32 [0xAA#8, 0xBB#8])
      { chipWith 0x04#8 [] with params := { bound.params with blockMap := [⟨false, true, 0x11, 0x20⟩] } }).map
      Chip.mem = some [(0x10, 0xAA#8)] := by decide

/-! ## Witnesses: the premises of each obligation are met together -/

theorem witness_DecodeInvertsEncode :
    (Instr.cmdRead 0x7FFFF#19 1).wellFormed = true ∧ (Instr.cmdWrite 0x7FFFE#19 [1#8, 2#8]).wellFormed = true ∧
      (Instr.write true true 0xFFFFFFFF#32 1#32 [9#8]).wellFormed = true ∧
      (Instr.write true false 0#32 0xFFFFFFFF#32 []).wellFormed = true := by decide

theorem witness_DecodedInstructionsAreWellFormed :
    decode .spi [0x03#8, 0x07#8, 0xFF#8, 0xFF#8, 0#8] = .ok (.cmdRead 0x7FFFF#19 1) ∧
      decode .host [0x04#8, 0#8, 0#8, 0#8, 0#8, 0#8, 0#8, 0#8, 1#8] = .ok (.write false false 0#32 1#32 []) :=
  ⟨rfl, rfl⟩

theorem witness_OpcodeBytesNameTheirCommands :
    (0x07#8 : Byte) ∉ [0x06#8, 0x04#8, 0x05#8, 0x01#8, 0x03#8, 0x02#8, 0xB9#8, 0xAB#8] := by decide

theorem witness_ChipReadsWhatTheFramerSends :
    payloadFits 0x7FFFF#19 1 = true ∧ payloadFits 0#19 524288 = true ∧
      payloadFits 0x7FFFE#19 [1#8, 2#8].length = true := by decide

theorem witness_MaskKeepsACheckedAddress : rangeOK 524288 0x7FFFF#32 1#32 = true := by decide

theorem witness_StepRunsTheDecodedInstruction :
    (bound.env.head? ≠ some .reset ∧ bound.seq = .idle) ∧
      decode .host [0x11#8] = .ok (.writeEnable true) ∧ decode .spi [0x06#8] = .ok .cmdWren ∧
      (bound.setHost [.request [0x11#8]]).host = .request [0x11#8] :: [] ∧
      (bound.setHost [.frame [0x06#8]]).host = .frame [0x06#8] :: [] :=
  ⟨by decide, rfl, rfl, rfl, rfl⟩

theorem witness_ReservedSelectCodesRejected :
    (12 ≤ (0xC#4 : BitVec 4).toNat ∧ 12 ≤ (0xF#4 : BitVec 4).toNat) ∧
      (bound.setHost [.request [requestByte 0xC#4 true true true true, 7#8]]).host =
        .request (requestByte 0xC#4 true true true true :: [7#8]) :: [] ∧
      bound.env.head? ≠ some .reset ∧ bound.seq = .idle := by decide

/-- `write_enable` held at its transfer. -/
def held : State := { bound with env := [good [], .silent] }

theorem witness_NoRequestAcceptedInFlight : (bound.setSeq (.busy .writeEnable 0 .csHigh)).seq ≠ .idle := by decide

theorem witness_ResetEventSparesTheChip : (bound.setEnv [.reset, bad]).env = .reset :: [bad] := rfl

theorem witness_ResetCutsAnOperationOff :
    ((planOf (.init true true true 3#8) (State.reset.setEnv [.reset])).valid = true ∧
      (State.reset.setEnv [.reset]).env = [] ++ .reset :: []) ∧
    ((planOf (.writeEnable true) (bound.setEnv [good [1#8], .reset])).valid = true ∧
      (∀ a ∈ [good [1#8]], a.isReply = true) ∧
      (bound.setEnv [good [1#8], .reset]).env = [good [1#8]] ++ .reset :: [] ∧
      (nextOf (exec (.writeEnable true) (bound.setEnv [good [1#8], .reset]))).map (fun t => (t.trace, t.chip.csLevel)) =
        some ([.req (.writeEnable true), .pin 3#8 .low true], .low)) ∧
    (planOf (.sleep true) (bound.setEnv [good [], good [], good [], good [], .reset])).valid = true := by decide

theorem witness_InvalidArgumentExactlyForTheListedCauses :
    bound.Answered ∧ (Instr.space (.read true true 0x7FFFF#32 1#32) = .host) ∧
      ¬argumentCause bound (.read true true 0x7FFFF#32 1#32) ∧
      argumentCause bound (.read true true 0x7FFFF#32 2#32) ∧
      argumentCause bound (.write true true 0x80000#32 1#32 [0#8]) ∧
      ¬argumentCause bound (.isBlockProtected true 1#8) ∧ argumentCause bound (.isBlockProtected true 2#8) ∧
      ¬argumentCause State.reset (.init true true true 3#8) ∧ argumentCause State.reset (.writeEnable true) := by
  refine ⟨by decide, rfl, ?_, ?_, ?_, ?_, ?_, ?_, ?_⟩ <;> simp only [argumentCause] <;> decide

theorem witness_LoneFramesChecked :
    State.reset.handle.bound = false ∧ payloadOk 0x7FFFF#19 2 bound = false ∧ payloadOk 0#19 0 bound = false ∧
      payloadOk 0#19 [1#8, 2#8].length { bound with params := { bound.params with maxXferLen := 1 } } = false := by
  decide

theorem witness_AnyFailedCallDecidesTheStatus :
    (bound.setEnv [good [1#8], bad]).Answered ∧ answerOf (.sleep true) (bound.setEnv [good [1#8], bad]) =
      some (.capabilityFailure, false) := by decide

theorem witness_FrameSelectsTransfersDeselects : (bound.setEnv [bad, good []]).Answered := by decide

theorem witness_ChipSelectAlternates :
    (bound.setEnv [good [], bad]).Answered ∧ opOf .cmdRdsr ≠ .init ∧ opOf (.init true true true 3#8) = .init := by
  decide

theorem witness_ChipSelectLevelAfterAnOperation :
    (bound.setEnv [bad]).Answered ∧ bound.Answered ∧ bound.chip.csLevel = .high ∧ State.reset.Answered ∧
      (chipOf (.init true true true 3#8) State.reset).map Chip.csLevel = some .high ∧
      (chipOf (.writeEnable true) (bound.setEnv [bad])).map Chip.csLevel = some .unknown ∧
      (chipOf (.writeEnable true) bound).map Chip.csLevel = some .high := by decide

theorem witness_OnlyInitWritesTheHandle :
    (State.reset.setEnv [bad]).Answered ∧ opOf (.wake true) ≠ .init ∧
      handleOf (.init true true true 7#8) (State.reset.setEnv [bad]) = some ⟨true, true, 7#8⟩ ∧
      handleOf (.init false true true 7#8) bound = some bound.handle := by decide

theorem witness_EventsDependOnSuccessBitsOnly :
    bound.handle = (chipWith 0x8E#8 []).handle ∧ bound.params.maxXferLen = (chipWith 0x8E#8 []).params.maxXferLen ∧
      bound.params.tickNs = (chipWith 0x8E#8 []).params.tickNs ∧
      SameDecisions [good [1#8], bad, .tick, .silent] [good [], .reply false [2#8], .tick, .silent] := by decide

theorem witness_UnansweredCallWaitsForEver :
    (nextOf (exec (.writeEnable true) held)).map State.seq = some (.busy .writeEnable 0 .xfer0) ∧
      .tick ∉ held.env ∧
      (nextOf (exec (.sleep true) (bound.setEnv [good [], good [], good [], .tick, .silent]))).map
        (fun t => (t.seq, t.env)) = some (.busy .sleep 0 .wait, [.silent]) := by decide

/-- R154: a call left open can be answered later; `write_enable` held at its transfer goes on and ends. -/
theorem test_goes_on : (nextOf (exec (.writeEnable true) held)).map (fun t => (t.goOn [[good []]]).trace) =
    some [.req (.writeEnable true), .pin 3#8 .low true, .xfer [0x06#8] false true none, .pin 3#8 .high true,
      .rsp .ok false none none] := by decide

/-- `sleep` at WAIT with a count. -/
def waiting (n : Nat) : State :=
  ({ bound with work := { bound.work with rq := some (.sleep true), dly := n }, env := [.tick] }).setSeq
    (.busy .sleep 0 .wait)

theorem witness_DelayCounterCountsTheTicks :
    (waiting 2).seq = .busy .sleep 0 .wait ∧ (waiting 2).work.rq = some (.sleep true) ∧
      (waiting 2).env = .tick :: [] ∧ 1 < (waiting 2).work.dly ∧ (waiting 1).work.dly = 1 ∧
      (nextOf (step (waiting 2))).map (fun t => t.work.dly) = some 1 ∧
      (nextOf (step (waiting 1))).map State.trace = some [.wait 100, .rsp .ok false none none] := by decide

theorem witness_DelayCounterRoundsUp :
    bound.handle.bound = true ∧ 1 ≤ bound.params.tickNs ∧
      (bound.setEnv [good [], good [], good [], .silent]).env =
        .reply true [] :: .reply true [] :: .reply true [] :: .silent :: [] := by decide

theorem witness_WaitOnlyAfterASuccessfulFrame :
    bound.Answered ∧ (bound.setEnv [good [], bad]).Answered ∧ answerOf (.sleep true) bound = some (.ok, false) ∧
      answerOf (.sleep true) (bound.setEnv [good [], bad]) = some (.capabilityFailure, false) := by decide

/-- An environment that succeeds and forces bytes received. -/
def forcing : State := bound.setEnv [good [], good [9#8, 9#8], good [0xFF#8]]

theorem witness_InitCompletes : (State.reset.setEnv [good [7#8]]).CallsSucceed := by decide
theorem witness_WriteEnableAndDisableComplete : forcing.CallsSucceed ∧ forcing.handle.bound = true := by decide
theorem witness_ReadCompletes :
    forcing.CallsSucceed ∧ forcing.handle.bound = true ∧
      rangeOK forcing.params.maxXferLen 0x7FFFF#32 1#32 = true := by decide
theorem witness_WriteCompletes :
    forcing.CallsSucceed ∧ forcing.handle.bound = true ∧
      rangeOK forcing.params.maxXferLen 0x7FFFC#32 4#32 = true ∧
      [1#8, 2#8, 3#8, 4#8].length = (4#32 : Field32).toNat := by decide
theorem witness_SleepAndWakeComplete : forcing.CallsSucceed ∧ forcing.handle.bound = true := by decide
theorem witness_ReadStatusRegisterCompletes : forcing.CallsSucceed ∧ forcing.handle.bound = true := by decide
theorem witness_WriteStatusRegisterCompletes : forcing.CallsSucceed ∧ forcing.handle.bound = true := by decide
theorem witness_QueriesAnswerOneBit :
    forcing.CallsSucceed ∧ forcing.handle.bound = true ∧ (1#8 : Byte).toNat ≤ 1 := by decide
theorem witness_LoneFramesComplete :
    forcing.CallsSucceed ∧ forcing.handle.bound = true ∧ payloadOk 0x7FFFF#19 1 forcing = true ∧
      payloadOk 0x7FFFE#19 [1#8, 2#8].length forcing = true := by decide

/-- A chip in use: some bytes, WPEN and BP1 set, the last frame a status read. -/
def inUse : State :=
  { bound with chip := { bound.chip with mem := [(5, 0x5A#8), (0x7FFFF, 0xFF#8)], sr := 0x8A#8 },
               env := [good []] }

theorem witness_EnableAndDisableFramesSetTheLatch :
    inUse.EnvOk ∧ inUse.chip.Ready ∧ inUse.handle.bound = true := by decide
theorem witness_WriteStoresTheUnprotectedBytes :
    inUse.EnvOk ∧ inUse.chip.Ready ∧ inUse.chip.Inv ∧ inUse.handle.bound = true ∧
      rangeOK inUse.params.maxXferLen 0x7FFFE#32 2#32 = true ∧
      [1#8, 0#8].length = (2#32 : Field32).toNat := by decide
theorem witness_WriteStatusRegisterTakesThreeBits :
    inUse.EnvOk ∧ inUse.chip.Ready ∧ inUse.handle.bound = true := by decide
theorem witness_WriteTypeFramesNeedTheLatch :
    bound.EnvOk ∧ bound.chip.Ready ∧ bound.chip.afterRead = false ∧ bound.handle.bound = true ∧
      bound.chip.sr.getLsbD 1 = false ∧ payloadOk 0x7FFFE#19 [1#8, 2#8].length bound = true := by decide
theorem witness_ReadReturnsTheArray :
    inUse.EnvOk ∧ inUse.chip.Ready ∧ inUse.handle.bound = true ∧
      rangeOK inUse.params.maxXferLen 0x7FFFF#32 1#32 = true := by decide
theorem witness_StatusReadReturnsTheRegister :
    inUse.EnvOk ∧ inUse.chip.Ready ∧ inUse.chip.afterRead = false ∧ inUse.handle.bound = true ∧
      (0#8 : Byte).toNat ≤ 1 := by decide

/-- A sleeping chip. -/
def asleep : State := { inUse with chip := { inUse.chip with mode := .asleep, mustWake := true } }
/-- A chip whose wake delay has 400 microseconds to go. -/
def recovering : State := { inUse with chip := { inUse.chip with recovery := 400 } }
/-- An awake chip to which the host owes a `wake`. -/
def owing : State := { inUse with chip := { inUse.chip with mustWake := true } }

theorem witness_SleepAndWakeMoveThePowerMode :
    (inUse.EnvOk ∧ inUse.handle.bound = true ∧ inUse.chip.pending = none ∧ inUse.chip.lost = false ∧
      inUse.chip.Ready ∧ inUse.chip.recovery = 0) ∧
    asleep.EnvOk ∧ asleep.handle.bound = true ∧ asleep.chip.pending = none ∧ asleep.chip.lost = false ∧
      asleep.chip.recovery = 0 := by decide
theorem witness_WriteThenReadReturnsTheData :
    (bound.EnvOk ∧ bound.chip.Ready ∧ bound.chip.Inv ∧ bound.handle.bound = true ∧
      rangeOK bound.params.maxXferLen 0x7FFFE#32 2#32 = true ∧ [1#8, 2#8].length = (2#32 : Field32).toNat) ∧
    ∀ x, (0x7FFFE#32 : Field32).toNat ≤ x → x < (0x7FFFE#32 : Field32).toNat + (2#32 : Field32).toNat →
      isProtected bound.params (setWel bound.chip.sr true) x = false :=
  ⟨by decide, fun _ _ _ => rfl⟩
theorem witness_WriteEndsWithTheLatchCleared :
    inUse.EnvOk ∧ inUse.chip.Ready ∧ inUse.handle.bound = true ∧
      rangeOK inUse.params.maxXferLen 0#32 1#32 = true ∧ [1#8].length = (1#32 : Field32).toNat := by decide
theorem witness_InitEstablishesWriteProtection :
    ({ inUse with handle := State.reset.handle }).EnvOk ∧ inUse.chip.Ready := by decide
theorem witness_SleepThenWakeSucceedAsAPair :
    inUse.EnvOk ∧ inUse.chip.Ready ∧ inUse.handle.bound = true := by decide
theorem witness_FailedWriteLeavesBytesOldOrNew :
    (inUse.setEnv [good [], good [], good [], good [], bad]).Answered ∧ inUse.chip.Ready ∧ inUse.chip.Inv ∧
      inUse.handle.bound = true ∧ rangeOK inUse.params.maxXferLen 4#32 2#32 = true ∧
      [1#8, 2#8].length = (2#32 : Field32).toNat := by decide
theorem witness_OnlyWritesChangeTheArray :
    ((inUse.setEnv [good [], bad]).Answered ∧ inUse.chip.pending = none ∧ inUse.chip.lost = false ∧
      inUse.chip.Ready ∧ opOf (.writeStatusRegister true 0#8) ≠ .write ∧
      opOf (.writeStatusRegister true 0#8) ≠ .cmdWrite) ∧
    asleep.Answered ∧ asleep.chip.pending = none ∧ asleep.chip.lost = false ∧ asleep.chip.recovery = 0 ∧
      opOf (.wake true) = .wake ∧ opOf .cmdWake = .cmdWake := by decide
theorem witness_CommandToASleepingChipIsMarked :
    (asleep.CallsSucceed ∧ (planOf (.read true true 0#32 1#32) asleep).valid = true ∧ asleep.chip.pending = none ∧
      asleep.chip.lost = false ∧ asleep.chip.mode = .asleep ∧ opOf (.read true true 0#32 1#32) ≠ .wake ∧
      opOf (.read true true 0#32 1#32) ≠ .cmdWake) ∧
    (owing.CallsSucceed ∧ (planOf (.sleep true) owing).valid = true ∧ owing.chip.pending = none ∧
      owing.chip.lost = false ∧ owing.chip.mustWake = true) ∧
    recovering.CallsSucceed ∧ (planOf (.wake true) recovering).valid = true ∧ recovering.chip.pending = none ∧
      recovering.chip.lost = false ∧ opOf (.wake true) = .wake ∧ 0 < recovering.chip.recovery ∧
      recovering.audit.wakeFailed = false := by decide
theorem witness_StatusReadRightAfterAReadIsMarked :
    (inUse.EnvOk ∧ inUse.chip.Ready ∧ inUse.handle.bound = true ∧
      rangeOK inUse.params.maxXferLen 0x7FFFF#32 1#32 = true ∧ inUse.audit.readRule = false) ∧
    (nextOf (exec (.read true true 0x7FFFF#32 1#32) inUse)).map (fun t =>
      ((planOf (.readStatusRegister true true) t).valid, (planOf (.isBlockProtected true 1#8) t).valid,
        (planOf (.writeStatusRegister true 0xFF#8) t).valid)) = some (true, true, true) ∧
      readsStatus (opOf (.readStatusRegister true true)) = true ∧
      readsStatus (opOf (.isBlockProtected true 1#8)) = true ∧
      readsStatus (opOf (.writeStatusRegister true 0xFF#8)) = false ∧
      (Instr.writeStatusRegister true 0xFF#8).wellFormed = true := by decide

theorem witness_StepKeepsTheChipInvariant :
    inUse.chip.Inv ∧
      ∃ t, step (inUse.setHost [.request [0x11#8]]) = .next t ∧ t.chip.sr = 0x8A#8 := by
  refine ⟨by decide, _, rfl, by decide⟩

theorem witness_StepKeepsTheFramerInvariant :
    bound.FramerInv ∧ ∃ t, step (bound.setHost [.request [0x11#8]]) = .next t ∧ t.seq = .idle := by
  refine ⟨?_, _, rfl, by decide⟩
  exact ⟨rfl, fun _ => by decide⟩

/-- An operation in flight meets the framer's invariant too: `write_enable` held at its transfer. -/
theorem witness_StepKeepsTheFramerInvariant_inFlight :
    ∃ t, exec (.writeEnable true) held = .next t ∧ t.seq = .busy .writeEnable 0 .xfer0 ∧ t.FramerInv := by
  refine ⟨_, rfl, by decide, ?_⟩
  exact ⟨rfl, rfl, rfl, by decide, .writeEnable true, rfl, rfl, by decide⟩

theorem witness_StepKeepsTheWireOnItsPin :
    bound.WireInv ∧ ∃ t, step (bound.setHost [.request [0x70#8, 9#8]]) = .next t ∧
        t.pinLevel 9#8 = .high ∧ t.pinLevel 3#8 = .high ∧ t.handle.csPin = 9#8 := by
  refine ⟨fun _ _ => rfl, _, rfl, by decide, by decide, by decide⟩

theorem witness_OnlyTheHandlesPinIsDriven :
    (bound.setEnv [good [], bad]).Answered ∧
      (nextOf (exec (.writeEnable true) bound)).map (fun t => (t.pinLevel 3#8, t.pinLevel 4#8)) =
        some (.high, .unknown) ∧
      (nextOf (exec (.writeEnable true) (bound.setEnv [bad]))).map (fun t => t.pinLevel 3#8) = some .unknown := by
  decide

/-- R9: the bytes a failed transfer received are shown (those the environment forces here). -/
theorem test_failed_transfer_shows_its_bytes :
    eventsOf .cmdRdsr (chipWith 0#8 [good [], good [], .reply false [0x5A#8]]) =
      some [.req .cmdRdsr, .pin 3#8 .low true, .xfer [0x05#8] false true none,
        .xfer [0x00#8] true false (some [0x5A#8]), .pin 3#8 .high true, .rsp .capabilityFailure false none none] :=
  rfl

theorem witness_FailedStatusWriteLeavesBitsOldOrNew :
    (inUse.setEnv [good [], good [], good [], good [], bad]).Answered ∧ inUse.chip.Ready ∧
      inUse.handle.bound = true := by decide

/-- A recovering chip, and a reset event at the second call. -/
def cutInDelay : State := recovering.setEnv [good [], .reset]
/-- A lost chip whose last frame was a READ. -/
def lostAfterRead : State := { inUse with chip := { inUse.chip with afterRead := true, lost := true } }

theorem witness_BrokenRulesAreMarkedAtOnce :
    (asleep.chip.mustWake = true ∧ (opOf (.read false true 0#32 1#32)).wakes = false ∧
      (nextOf (exec (.read false true 0#32 1#32) asleep)).map (fun t => t.audit.sleepRule) = some true) ∧
    (0 < cutInDelay.chip.recovery ∧ opOf .cmdWren ≠ .init ∧ (planOf .cmdWren cutInDelay).valid = true ∧
      cutInDelay.env = .reply true [] :: .reset :: [] ∧ cutInDelay.audit.wakeFailed = false) ∧
    (lostAfterRead.chip.afterRead = true ∧ lostAfterRead.chip.pending = none ∧ lostAfterRead.CallsSucceed ∧
      readsStatus (opOf (.isWriteEnabled true)) = true ∧ (planOf (.isWriteEnabled true) lostAfterRead).valid = true) := by
  decide

/-- R48: 200 microseconds HIGH, a select, 200 more are no 400 with chip-select HIGH throughout. -/
theorem test_delay_restarts_at_a_select :
    ((((recovering.elapse 200).driveLow true []).driveHigh true).elapse 200).chip.recovery = 200 := rfl

end Sys2Proof.Tests
end

