-- ==== Sys2Proof/Proofs/Events.lean ====
section
/-! PROOFS. The events an instruction shows in any environment: which ones a step of a micro-program can add to the
trace, and from them those of a whole run and of an instruction. -/

namespace Sys2Proof.Machine

/-! Extending the trace. -/

/-- The trace of `t` is that of `s` with further events, each of which satisfies `P`. -/
def State.Extends (P : Event → Prop) (s t : State) : Prop :=
  ∃ l, t.trace = s.trace ++ l ∧ ∀ e ∈ l, P e

theorem State.Extends.of_trace_eq {P : Event → Prop} {s t : State} (h : t.trace = s.trace) : s.Extends P t :=
  ⟨[], by rw [h, List.append_nil], by simp⟩

theorem State.Extends.of_event {P : Event → Prop} {s t : State} {e : Event} (h : t.trace = s.trace ++ [e])
    (he : P e) : s.Extends P t :=
  ⟨[e], h, by simpa using he⟩

theorem State.Extends.trans {P : Event → Prop} {s t u : State} (h : s.Extends P t) (k : t.Extends P u) :
    s.Extends P u := by
  obtain ⟨l, hl, pl⟩ := h
  obtain ⟨m, hm, pm⟩ := k
  exact ⟨l ++ m, by rw [hm, hl, List.append_assoc], fun e he => (List.mem_append.mp he).elim (pl e) (pm e)⟩

theorem State.Extends.mono {P Q : Event → Prop} {s t : State} (h : s.Extends P t) (hPQ : ∀ e, P e → Q e) :
    s.Extends Q t := by
  obtain ⟨l, hl, pl⟩ := h
  exact ⟨l, hl, fun e he => hPQ e (pl e he)⟩

/-! One step of a micro-program. -/

/-- The events that the call or wait of a step can show (spec/00_scope.md R7, R9): its answer is open, and a transfer
receives as many bytes as it sends. -/
inductive Act.Shows : Act → Event → Prop where
  | csHigh0 (p : Pin) (ok : Bool) : Act.Shows .csHigh0 (.pin p .high ok)
  | csLow (fr : List Byte) (p : Pin) (ok : Bool) : Act.Shows (.csLow fr) (.pin p .low ok)
  | xfer (x : Xfer) (ok : Bool) (rx : List Byte) (hlen : rx.length = x.tx.length) :
      Act.Shows (.xfer x) (.xfer x.tx x.wantRx ok (if x.wantRx then some rx else none))
  | csHigh (p : Pin) (ok : Bool) : Act.Shows .csHigh (.pin p .high ok)
  | wait (us : Nat) : Act.Shows (.wait us) (.wait us)

/-- The state a step of a micro-program leaves, however the operation goes on. -/
def Turn.state : Turn → State
  | .next s | .abort s | .hold s => s

/-- The state a micro-program leaves, however it ends. -/
def Run.state : Run → State
  | .finished s | .failed s | .held s => s

theorem State.pinWrite_extends {P : Event → Prop} (s : State) (l : Level) (ok : Bool) (fr : List Byte)
    (hP : P (.pin s.handle.csPin l ok)) : s.Extends P (s.pinWrite l ok fr) :=
  .of_event (s.pinWrite_frame l ok fr).trace hP

theorem State.transfer_extends (s : State) (x : Xfer) (ok : Bool) (rx : List Byte) :
    s.Extends (Act.xfer x).Shows (s.transfer x ok rx) :=
  .of_event (s.transfer_frame x ok rx).trace (.xfer x ok _ (received_length s x ok rx))

theorem State.endWait_trace (s : State) (us : Nat) : (s.endWait us).trace = s.trace ++ [.wait us] := rfl

/-- A step of a micro-program shows no event but the one of its own call or wait, whatever the environment does. -/
theorem perform_extends (op : Op) (m : MStep) (s : State) : s.Extends m.act.Shows (perform op m s).state := by
  obtain ⟨k, st, act⟩ := m
  cases act with
  | csHigh0 =>
    rcases (s.setSeq (.busy op k st)).ask_cases with ⟨ok, rx, e, h, -⟩ | ⟨h, -⟩ | ⟨e, h, -⟩ | ⟨e, h, -⟩ <;>
      simp only [perform, h]
    · split <;> exact State.pinWrite_extends _ .high ok [] (.csHigh0 _ _)
    all_goals exact .of_trace_eq rfl
  | csLow fr =>
    rcases ((s.setSeq (.busy op k st)).setFail false).ask_cases with
      ⟨ok, rx, e, h, -⟩ | ⟨h, -⟩ | ⟨e, h, -⟩ | ⟨e, h, -⟩ <;> simp only [perform, h]
    · exact State.pinWrite_extends _ .low ok fr (.csLow _ _ _)
    all_goals exact .of_trace_eq rfl
  | xfer x =>
    by_cases hf : s.work.fail = true
    · rw [perform_xfer_skipped s op k st x hf]
      exact .of_trace_eq rfl
    set t := s.setSeq (.busy op k st) with ht
    rcases (t.setWork { t.work with txbuf := x.tx }).ask_cases with
      ⟨ok, rx, e, h, -⟩ | ⟨h, -⟩ | ⟨e, h, -⟩ | ⟨e, h, -⟩ <;> simp only [perform, if_neg hf, ← ht, h]
    · exact State.transfer_extends _ x ok rx
    all_goals exact .of_trace_eq rfl
  | csHigh =>
    rcases (s.setSeq (.busy op k st)).ask_cases with ⟨ok, rx, e, h, -⟩ | ⟨h, -⟩ | ⟨e, h, -⟩ | ⟨e, h, -⟩ <;>
      simp only [perform, h]
    · split <;> exact State.pinWrite_extends _ .high ok [] (.csHigh _ _)
    all_goals exact .of_trace_eq rfl
  | wait us =>
    rcases (s.atWait op us).ask_cases with ⟨ok, rx, e, h, -⟩ | ⟨h, -⟩ | ⟨e, h, -⟩ | ⟨e, h, -⟩ <;>
      simp only [perform, h]
    · exact .of_event (State.endWait_trace _ us) (.wait us)
    · exact .of_trace_eq rfl
    · split
      · exact .of_event (State.endWait_trace _ us) (.wait us)
      · exact .of_trace_eq rfl
    · exact .of_trace_eq rfl

/-! A whole micro-program, and an instruction. -/

/-- A micro-program shows only events of its steps. -/
theorem run_extends (op : Op) (ms : List MStep) (s : State) :
    s.Extends (fun e => ∃ m ∈ ms, m.act.Shows e) (run op ms s).state := by
  induction ms generalizing s with
  | nil => exact .of_trace_eq rfl
  | cons m ms ih =>
    have hm := (perform_extends op m s).mono (Q := fun e => ∃ n ∈ m :: ms, n.act.Shows e)
      fun e he => ⟨m, List.mem_cons_self, he⟩
    rw [run]
    cases hp : perform op m s with
    | next t =>
      rw [hp] at hm
      exact hm.trans ((ih t).mono fun e ⟨n, hn, he⟩ => ⟨n, List.mem_cons_of_mem m hn, he⟩)
    | abort t => rwa [hp] at hm
    | hold t => rwa [hp] at hm

/-- From the end of a micro-program on, a response is all that is shown. -/
theorem conclude_extends (op : Op) (result : State → Result) (r : Run) :
    r.state.Extends (fun e => ∃ st v sr d, e = .rsp st v sr d) (conclude op result r) := by
  cases r with
  | finished s =>
    rw [conclude, State.respondOk_eq]
    exact .of_event (State.respond_trace _ _ _ _ _) ⟨_, _, _, _, rfl⟩
  | failed s => exact .of_event (s.raiseCapabilityFailure_trace op) ⟨_, _, _, _, rfl⟩
  | held s => exact .of_trace_eq rfl

/-- What a plan stores before its first call shows no event. -/
theorem planOf_prepare_trace (i : Instr) (s t : State) : ((planOf i s).prepare t).trace = t.trace := by
  cases i <;> rfl

/-- The events of an instruction: its request, those of its micro-program's steps, and a response. -/
inductive InstrShows (i : Instr) (ms : List MStep) : Event → Prop where
  | req : InstrShows i ms (.req i)
  | step {m : MStep} {e : Event} (hm : m ∈ ms) (he : m.act.Shows e) : InstrShows i ms e
  | rsp (st : Status) (v : Bool) (sr : Option Byte) (d : Option (List Byte)) : InstrShows i ms (.rsp st v sr d)

/-- Whatever the environment does, an instruction shows only these events. -/
theorem runPlan_extends (i : Instr) (s : State) :
    s.Extends (InstrShows i (planOf i s).steps) (runPlan i (planOf i s) s) := by
  have hreq : s.Extends (InstrShows i (planOf i s).steps) (s.accept i) := .of_event (s.accept_trace i) .req
  cases hv : (planOf i s).valid with
  | false =>
    rw [runPlan_invalid _ _ _ hv]
    exact hreq.trans (.of_event (State.respond_trace _ _ _ _ _) (.rsp _ _ _ _))
  | true =>
    rw [runPlan_valid _ _ _ hv]
    have hprep := State.Extends.of_trace_eq (P := InstrShows i (planOf i s).steps)
      (planOf_prepare_trace i s (s.accept i))
    have hrun := (run_extends (opOf i) (planOf i s).steps ((planOf i s).prepare (s.accept i))).mono
      (Q := InstrShows i (planOf i s).steps) fun e ⟨m, hm, he⟩ => .step hm he
    have hrsp := (conclude_extends (opOf i) (planOf i s).result
      (run (opOf i) (planOf i s).steps ((planOf i s).prepare (s.accept i)))).mono
      (Q := InstrShows i (planOf i s).steps) fun e ⟨st, v, sr, d, he⟩ => he ▸ .rsp st v sr d
    exact ((hreq.trans hprep).trans hrun).trans hrsp

/-- Any transfer an instruction shows is one a step of its micro-program made, with its received bytes. -/
theorem InstrShows.xfer_step {i : Instr} {ms : List MStep} {tx : List Byte} {want ok : Bool}
    {rx : Option (List Byte)} (h : InstrShows i ms (.xfer tx want ok rx)) :
    ∃ m ∈ ms, m.act = .xfer ⟨tx, want⟩ ∧
      ∃ b : List Byte, b.length = tx.length ∧ rx = if want then some b else none := by
  cases h with
  | @step m _ hm he =>
    obtain ⟨k, st, act⟩ := m
    cases he with
    | xfer x _ b hlen => exact ⟨_, hm, rfl, b, hlen, rfl⟩

/-- Settles O58: every event of an instruction comes from its request, a step of its micro-program or its response,
and only a transfer step shows a transfer, with as many bytes as it sends where they are wanted. -/
theorem transfersReceiveAsManyBytesAsTheySend : Obligations.TransfersReceiveAsManyBytesAsTheySend := by
  unfold Obligations.TransfersReceiveAsManyBytesAsTheySend
  intro i s
  obtain ⟨l, hl, hshows⟩ := runPlan_extends i s
  refine ⟨_, l, exec_eq i s, hl, fun tx want ok rx he => ?_⟩
  obtain ⟨-, -, -, b, hlen, rfl⟩ := (hshows _ he).xfer_step
  exact ⟨fun hw => by rw [hw]; rfl, fun hw => ⟨b, by rw [hw]; rfl, hlen⟩⟩

end Sys2Proof.Machine
end

section
/-! PROOFS. What one step of a micro-program can do in any environment, said once (`perform_performs`), and the
induction that carries an invariant along a micro-program (`run_holds`). -/

namespace Sys2Proof.Machine

/-! What steps of micro-programs leave alone. -/

/-- What no step of a micro-program writes, a reset event aside: the handle, the latched request, the response, the
parameters and the host's list; and the script only gets shorter. -/
structure StepFrame (s t : State) : Prop where
  handle   : t.handle = s.handle
  rq       : t.work.rq = s.work.rq
  response : t.response = s.response
  params   : t.params = s.params
  host     : t.host = s.host
  env      : ∀ a ∈ t.env, a ∈ s.env

theorem StepFrame.refl (s : State) : StepFrame s s := ⟨rfl, rfl, rfl, rfl, rfl, fun _ h => h⟩

theorem StepFrame.trans {s t u : State} (h : StepFrame s t) (k : StepFrame t u) : StepFrame s u where
  handle := k.handle.trans h.handle
  rq := k.rq.trans h.rq
  response := k.response.trans h.response
  params := k.params.trans h.params
  host := k.host.trans h.host
  env a ha := h.env a (k.env a ha)

theorem StepFrame.answered {s t : State} (h : StepFrame s t) (hs : s.Answered) : t.Answered :=
  fun a ha => hs a (h.env a ha)

/-- The level of a wire after a step answered with `ok`: what a pin write leaves, the level before where the step writes
no pin (spec/10_state.md R20). -/
def Act.levelAfter (a : Act) (ok : Bool) (before : CsLevel) : CsLevel :=
  match a with
  | .csHigh0 | .csHigh => Level.high.after ok
  | .csLow _ => Level.low.after ok
  | .xfer _ | .wait _ => before

/-- The step is a pin write. -/
def Act.writesPin : Act → Bool
  | .csHigh0 | .csLow _ | .csHigh => true
  | .xfer _ | .wait _ => false

/-- A step has been made: its call was answered with `ok`, or its wait has ended. Chip-select and the handle's pin take
the same level, no other pin moves, and the one event is that of the step. -/
structure StepMade (a : Act) (ok : Bool) (s t : State) : Prop extends StepFrame s t where
  csLevel : t.chip.csLevel = a.levelAfter ok s.chip.csLevel
  pin     : t.pinLevel s.handle.csPin = a.levelAfter ok (s.pinLevel s.handle.csPin)
  others  : ∀ p, p ≠ s.handle.csPin → t.pinLevel p = s.pinLevel p
  event   : ∃ e, t.trace = s.trace ++ [e] ∧ a.Shows e ∧ ∀ p l b, e = .pin p l b → p = s.handle.csPin ∧ b = ok
  pinFailed : t.audit.pinFailed = (s.audit.pinFailed || (a.writesPin && !ok))

/-- Nothing an operation shows, and nothing of the chip and its pins, has changed: so it is at most the sequencer, FAIL,
the buffers and the delay counter that have, and the script. -/
structure StepQuiet (s t : State) : Prop extends StepFrame s t where
  chip  : t.chip = s.chip
  pins  : t.pins = s.pins
  trace : t.trace = s.trace
  audit : t.audit = s.audit

/-- A step stands open: its call is not answered yet, its wait has not ended, and the sequencer is at it. -/
structure StepOpen (op : Op) (m : MStep) (s t : State) : Prop extends StepQuiet s t where
  seq : t.seq = .busy op m.frame m.step

/-- FAIL (spec/40_framing.md R80, R92) where the operation goes on after a step answered with `ok`: select and transfer
leave the answer there, and transfer and deselect attempt go on only when no call of their frame has failed. -/
def Act.Passes (a : Act) (ok : Bool) (s t : State) : Prop :=
  match a with
  | .csHigh0 => ok = true
  | .csLow _ => t.work.fail = !ok
  | .xfer _ => s.work.fail = false ∧ t.work.fail = !ok
  | .csHigh => s.work.fail = false ∧ ok = true
  | .wait _ => True

/-- The step is a pin write HIGH: the only steps after which an operation fails (R83, R92). -/
def Act.drivesHigh : Act → Bool
  | .csHigh0 | .csHigh => true
  | .csLow _ | .xfer _ | .wait _ => false

theorem Act.levelAfter_of_drivesHigh {a : Act} (h : a.drivesHigh = true) (ok : Bool) (c : CsLevel) :
    a.levelAfter ok c = Level.high.after ok := by
  cases a with
  | csHigh0 | csHigh => rfl
  | csLow | xfer | wait => cases h

theorem Act.levelAfter_of_noPin {a : Act} (h : a.writesPin = false) (ok : Bool) (c : CsLevel) :
    a.levelAfter ok c = c := by
  cases a with
  | csHigh0 | csLow | csHigh => cases h
  | xfer | wait => rfl

/-- The operation goes on after a pin write HIGH only when that succeeded. -/
theorem Act.Passes.ok_of_drivesHigh {a : Act} {ok : Bool} {s t : State} (hp : a.Passes ok s t)
    (h : a.drivesHigh = true) : ok = true := by
  cases a with
  | csHigh0 => exact hp
  | csHigh => exact hp.2
  | csLow | xfer | wait => cases h

/-- What one step of a micro-program can do. -/
inductive Performs (op : Op) (m : MStep) (s : State) : Turn → Prop where
  /-- A transfer after a failed call of its frame is skipped (R81). -/
  | skipped (x : Xfer) (ha : m.act = .xfer x) (hf : s.work.fail = true) : Performs op m s (.next s)
  | passes (ok : Bool) (t : State) (hm : StepMade m.act ok s t) (hp : m.act.Passes ok s t) : Performs op m s (.next t)
  | aborts (ok : Bool) (t : State) (hm : StepMade m.act ok s t) (hd : m.act.drivesHigh = true) :
      Performs op m s (.abort t)
  | stands (t : State) (ho : StepOpen op m s t) (hn : ¬ s.Answered) : Performs op m s (.hold t)
  | reset (t : State) (ho : StepOpen op m s t) (hn : ¬ s.Answered) : Performs op m s (.hold t.applyReset)

/-- The place of a step fits what it does (spec/10_state.md R14; log 35). -/
def MStep.WellPlaced (m : MStep) : Prop :=
  match m.act with
  | .csHigh0 => m.step = .csHigh0
  | .csLow _ => m.step = .csLow
  | .xfer _ => m.step = .xfer0 ∨ m.step = .xfer1
  | .csHigh => m.step = .csHigh
  | .wait _ => m.frame = 0 ∧ m.step = .wait

/-! A call answered, a wait ended. -/

theorem StepMade.of_pinFrame {a : Act} {l : Level} {ok : Bool} {s u t : State} (hu : StepQuiet s u)
    (ht : PinFrame u t l ok) (hw : a.writesPin = true) (hl : ∀ c, a.levelAfter ok c = l.after ok)
    (he : ∀ p, a.Shows (.pin p l ok)) : StepMade a ok s t := by
  have hpin : ∀ p, t.pinLevel p = if s.handle.csPin = p then l.after ok else s.pinLevel p := by
    intro p
    rw [← State.pinLevel_setPin]
    simp only [State.pinLevel, State.setPin, ht.pins, hu.handle, hu.pins]
  refine ⟨⟨ht.handle.trans hu.handle, (congrArg Work.rq ht.work).trans hu.rq, ht.response.trans hu.response,
    ht.params.trans hu.params, ht.host.trans hu.host, fun b hb => hu.env b (ht.env ▸ hb)⟩, ?_, ?_, ?_,
    ⟨_, by rw [ht.trace, hu.trace], he _, ?_⟩, by rw [ht.pinFailed, hu.audit, hw]; rfl⟩
  · rw [ht.csLevel, hl]
  · rw [hpin, if_pos rfl, hl]
  · exact fun p hp => by rw [hpin, if_neg (Ne.symm hp)]
  · rintro p l b ⟨⟩
    exact ⟨by rw [hu.handle], rfl⟩

theorem StepMade.setFail {a : Act} {ok : Bool} {s t : State} (h : StepMade a ok s t) (b : Bool) :
    StepMade a ok s (t.setFail b) :=
  ⟨⟨h.handle, h.rq, h.response, h.params, h.host, h.env⟩, h.csLevel, h.pin, h.others, h.event, h.pinFailed⟩

/-- The bytes of a transfer do not move chip-select. -/
@[simp] theorem State.chipTakes_csLevel (s : State) (tx : List Byte) (ok : Bool) :
    (s.chipTakes tx ok).chip.csLevel = s.chip.csLevel := by
  unfold State.chipTakes
  split <;> rfl

theorem StepMade.of_transfer {s u : State} (hu : StepQuiet s u) (x : Xfer) (ok : Bool) (rx : List Byte) :
    StepMade (.xfer x) ok s (u.transfer x ok rx) := by
  have ht := u.transfer_frame x ok rx
  have hpin : ∀ p, (u.transfer x ok rx).pinLevel p = s.pinLevel p := fun p => by
    simp only [State.pinLevel, ht.pins, hu.pins]
  refine ⟨⟨ht.handle.trans hu.handle, (congrArg Work.rq ht.work).trans hu.rq, ht.response.trans hu.response,
    ht.params.trans hu.params, ht.host.trans hu.host, fun b hb => hu.env b (ht.env ▸ hb)⟩, ?_, hpin _,
    fun p _ => hpin p, ⟨_, by rw [ht.trace, hu.trace], .xfer x ok _ (received_length u x ok rx), by simp⟩,
    by rw [ht.pinFailed, hu.audit]; exact (Bool.or_false _).symm⟩
  rw [State.transfer_eq, State.rxStored_eq]
  exact (State.chipTakes_csLevel _ _ _).trans (congrArg Chip.csLevel hu.chip)

theorem StepMade.of_endWait {s u : State} (hu : StepQuiet s u) (us : Nat) :
    StepMade (.wait us) true s (u.endWait us) := by
  have hpin : ∀ p, (u.endWait us).pinLevel p = s.pinLevel p := fun p =>
    congrArg (fun v : Vector CsLevel 256 => v[p.toNat]'p.isLt) hu.pins
  have hcs : (u.endWait us).chip.csLevel = u.chip.csLevel := rfl
  exact ⟨⟨hu.handle, hu.rq, hu.response, hu.params, hu.host, hu.env⟩, by rw [hcs, hu.chip]; rfl, hpin _,
    fun p _ => hpin p, ⟨_, by rw [State.endWait_trace, hu.trace], .wait us, by simp⟩,
    (congrArg Audit.pinFailed hu.audit).trans (Bool.or_false _).symm⟩

/-! Every step. -/

/-- An environment whose next answer is no reply does not answer every call. -/
theorem State.not_answered_of_mem {s : State} {a : Answer} (h : a ∈ s.env) (ha : a.isReply = false) :
    ¬ s.Answered := fun hs => by
  rw [hs a h] at ha
  exact Bool.noConfusion ha

/-- What becomes of a call or wait by the environment's reply, where the step stands open while there is none
(spec/60_exceptions.md R154, spec/70_reset_and_hazards.md R183). -/
def Reply.turn (asking : State) (answered : Bool → List Byte → State → Turn) (ticked : State → Turn) : Reply → Turn
  | .answer ok rx u => answered ok rx u
  | .silent => .hold asking
  | .tick u => ticked u
  | .reset u => .hold u.applyReset

/-- Asking the environment changes the script only. -/
theorem StepQuiet.setEnv {s t : State} (h : StepQuiet s t) {e : List Answer} (he : ∀ a ∈ e, a ∈ t.env) :
    StepQuiet s (t.setEnv e) :=
  ⟨⟨h.handle, h.rq, h.response, h.params, h.host, fun a ha => h.env a (he a ha)⟩, h.chip, h.pins, h.trace, h.audit⟩

/-- To know what a step does, see what it does when it is answered, and at a tick. -/
theorem Performs.of_ask {op : Op} {m : MStep} {s t : State} (h : StepOpen op m s t)
    {answered : Bool → List Byte → State → Turn} {ticked : State → Turn}
    (ht : ∀ u, StepOpen op m s u → ¬ s.Answered → Performs op m s (ticked u))
    (ha : ∀ ok rx u, StepQuiet s u → Performs op m s (answered ok rx u)) :
    Performs op m s (t.ask.turn t answered ticked) := by
  have not_answered : ∀ {a}, a ∈ t.env → a.isReply = false → ¬ s.Answered := fun hm hr =>
    State.not_answered_of_mem (h.env _ hm) hr
  rcases t.ask_cases with ⟨ok, rx, e, hask, he⟩ | ⟨hask, he⟩ | ⟨e, hask, he⟩ | ⟨e, hask, he⟩ <;> rw [hask]
  · exact ha ok rx _ (h.toStepQuiet.setEnv he)
  · exact .stands _ h (not_answered (List.mem_of_mem_head? he) rfl)
  · exact ht _ ⟨h.toStepQuiet.setEnv (by simp_all), h.seq⟩ (not_answered (a := .tick) (by simp [he]) rfl)
  · exact .reset _ ⟨h.toStepQuiet.setEnv (by simp_all), h.seq⟩ (not_answered (a := .reset) (by simp [he]) rfl)

/-- What one step of a micro-program can do, in any environment. -/
theorem perform_performs {op : Op} {m : MStep} (hm : m.WellPlaced) (s : State) : Performs op m s (perform op m s) := by
  obtain ⟨k, st, act⟩ := m
  have at_step : StepOpen op ⟨k, st, act⟩ s (s.setSeq (.busy op k st)) :=
    ⟨⟨⟨rfl, rfl, rfl, rfl, rfl, fun _ h => h⟩, rfl, rfl, rfl, rfl⟩, rfl⟩
  cases act with
  | csHigh0 =>
    refine Performs.of_ask at_step (ticked := .hold) (answered := fun ok _ u =>
      if ok then .next (u.pinWrite .high ok []) else .abort (u.pinWrite .high ok [])) .stands fun ok rx u hu => ?_
    have made : StepMade .csHigh0 ok s (u.pinWrite .high ok []) :=
      .of_pinFrame hu (u.pinWrite_frame .high ok []) rfl (fun _ => rfl) (fun p => .csHigh0 p ok)
    split
    · next hok => exact .passes ok _ made hok
    · exact .aborts ok _ made rfl
  | csLow fr =>
    have at_select : StepOpen op ⟨k, st, .csLow fr⟩ s ((s.setSeq (.busy op k st)).setFail false) :=
      ⟨⟨⟨rfl, rfl, rfl, rfl, rfl, fun _ h => h⟩, rfl, rfl, rfl, rfl⟩, rfl⟩
    refine Performs.of_ask at_select (ticked := .hold)
      (answered := fun ok _ u => .next ((u.pinWrite .low ok fr).setFail (!ok))) .stands fun ok rx u hu => ?_
    have made : StepMade (.csLow fr) ok s (u.pinWrite .low ok fr) :=
      .of_pinFrame hu (u.pinWrite_frame .low ok fr) rfl (fun _ => rfl) (fun p => .csLow fr p ok)
    exact .passes ok _ (made.setFail _) rfl
  | xfer x =>
    by_cases hf : s.work.fail = true
    · rw [perform_xfer_skipped s op k st x hf]
      exact .skipped x rfl hf
    have at_xfer : StepOpen op ⟨k, st, .xfer x⟩ s ((s.setSeq (.busy op k st)).setWork { s.work with txbuf := x.tx }) :=
      ⟨⟨⟨rfl, rfl, rfl, rfl, rfl, fun _ h => h⟩, rfl, rfl, rfl, rfl⟩, rfl⟩
    simp only [perform, if_neg hf]
    refine Performs.of_ask at_xfer (ticked := .hold) (answered := fun ok rx u => .next (u.transfer x ok rx)) .stands
      fun ok rx u hu => ?_
    exact .passes ok _ (.of_transfer hu x ok rx)
      ⟨Bool.eq_false_of_not_eq_true hf, congrArg Work.fail (u.transfer_frame x ok rx).work⟩
  | csHigh =>
    refine Performs.of_ask at_step (ticked := .hold) (answered := fun ok _ u =>
      if s.work.fail || !ok then .abort ((u.pinWrite .high ok []).setFail true) else .next (u.pinWrite .high ok []))
      .stands fun ok rx u hu => ?_
    have made : StepMade .csHigh ok s (u.pinWrite .high ok []) :=
      .of_pinFrame hu (u.pinWrite_frame .high ok []) rfl (fun _ => rfl) (fun p => .csHigh p ok)
    split
    · exact .aborts ok _ (made.setFail true) rfl
    · next hok => exact .passes ok _ made (by simpa [Act.Passes] using hok)
  | wait us =>
    obtain ⟨rfl, rfl⟩ : k = 0 ∧ st = .wait := hm
    have at_wait : StepOpen op ⟨0, .wait, .wait us⟩ s (s.atWait op us) :=
      ⟨⟨⟨rfl, rfl, rfl, rfl, rfl, fun _ h => h⟩, rfl, rfl, rfl, rfl⟩, rfl⟩
    refine Performs.of_ask at_wait (answered := fun _ _ u => .next (u.endWait us)) (ticked := fun u =>
      if u.work.dly ≤ 1 then .next (u.endWait us) else .hold (u.setDly (u.work.dly - 1))) (fun u ho hn => ?_)
      fun ok rx u hu => .passes true _ (.of_endWait hu us) trivial
    split
    · exact .passes true _ (.of_endWait ho.toStepQuiet us) trivial
    · exact .stands _ ⟨⟨⟨ho.handle, ho.rq, ho.response, ho.params, ho.host, ho.env⟩, ho.chip, ho.pins, ho.trace,
        ho.audit⟩, ho.seq⟩ hn

/-! Along a micro-program. -/

/-- What holds of the state after a step, according to how the operation goes on. -/
def Turn.Holds (next abort hold : State → Prop) : Turn → Prop
  | .next s => next s
  | .abort s => abort s
  | .hold s => hold s

/-- What holds of the state a micro-program leaves, according to how it ended. -/
def Run.Holds (finished failed held : State → Prop) : Run → Prop
  | .finished s => finished s
  | .failed s => failed s
  | .held s => held s

/-- To know what a step comes to, go through what it can do. -/
theorem perform_holds {op : Op} {m : MStep} {s : State} (hm : m.WellPlaced) {next abort hold : State → Prop}
    (h : ∀ r, Performs op m s r → r.Holds next abort hold) : (perform op m s).Holds next abort hold :=
  h _ (perform_performs hm s)

/-- The induction along a micro-program: a property of the state and the rest of the program that every step keeps. -/
theorem run_holds {op : Op} {inv : List MStep → State → Prop} {failed held : State → Prop}
    (hstep : ∀ m ms s, inv (m :: ms) s → (perform op m s).Holds (inv ms) failed held) {ms : List MStep} {s : State}
    (h : inv ms s) : (run op ms s).Holds (inv []) failed held := by
  induction ms generalizing s with
  | nil => exact h
  | cons m ms ih =>
    have hm := hstep m ms s h
    rw [run]
    cases hp : perform op m s with
    | next t => rw [hp] at hm; exact ih hm
    | abort t => rw [hp] at hm; exact hm
    | hold t => rw [hp] at hm; exact hm

/-- What the response leaves of a property of the ways a micro-program ends. -/
theorem conclude_holds {finished failed held P : State → Prop} (op : Op) (result : State → Result) {r : Run}
    (h : r.Holds finished failed held)
    (hfin : ∀ s, finished s → P ((s.respondOk (result s)).noteOutcome op false))
    (hfail : ∀ s, failed s → P (s.raiseCapabilityFailure op)) (hheld : ∀ s, held s → P s) :
    P (conclude op result r) := by
  cases r with
  | finished s => exact hfin s h
  | failed s => exact hfail s h
  | held s => exact hheld s h

end Sys2Proof.Machine
end

section
/-! PROOFS. The micro-programs of the plans: their steps stand in their places, selects and deselects alternate, and
none begins with a wait (spec/40_framing.md R82, R93). -/

namespace Sys2Proof.Machine

/-- The step is made inside a frame: a select stands before it, its deselect does not. -/
def Act.inside : Act → Bool
  | .xfer _ | .csHigh => true
  | .csHigh0 | .csLow _ | .wait _ => false

/-- The step leaves a frame open behind it. -/
def Act.leavesOpen : Act → Bool
  | .csLow _ | .xfer _ => true
  | .csHigh0 | .csHigh | .wait _ => false

/-- Whether a frame is open where the rest of a micro-program begins. -/
def frameOpen : List MStep → Bool
  | [] => false
  | m :: _ => m.act.inside

/-- Whether the rest of a micro-program begins where chip-select rests: at a wait, or at its end. -/
def restsAt : List MStep → Bool
  | [] => true
  | m :: _ => m.step == .wait

/-- Every step stands in its place, and a frame is open exactly between a select and its deselect. -/
def WellPlanned : List MStep → Prop
  | [] => True
  | m :: ms => m.WellPlaced ∧ m.act.leavesOpen = frameOpen ms ∧ WellPlanned ms

/-- The one step before a frame of its own: `init`'s pin write HIGH. -/
theorem MStep.WellPlaced.csHigh0_of_step {m : MStep} (h : m.WellPlaced) (hs : m.step = .csHigh0) :
    m.act = .csHigh0 := by
  obtain ⟨k, st, act⟩ := m
  cases act <;> simp_all [MStep.WellPlaced]

theorem MStep.WellPlaced.step_of_csHigh0 {m : MStep} (h : m.WellPlaced) (ha : m.act = .csHigh0) :
    m.step = .csHigh0 := by
  simpa [MStep.WellPlaced, ha] using h

/-- VALIDATE and RESPOND are no steps of a micro-program. -/
theorem MStep.WellPlaced.step_isCall {m : MStep} (h : m.WellPlaced) : m.step ≠ .validate ∧ m.step ≠ .respond := by
  obtain ⟨k, st, act⟩ := m
  cases act <;> simp_all [MStep.WellPlaced]
  rcases h with rfl | rfl <;> simp

/-- A step that leaves no frame open is a pin write HIGH, or a wait, which moves no wire. -/
theorem MStep.WellPlaced.high_or_wait {m : MStep} (h : m.WellPlaced) (ho : m.act.leavesOpen = false) :
    m.act.drivesHigh = true ∨ (m.step = .wait ∧ ∀ ok c, m.act.levelAfter ok c = c) := by
  obtain ⟨k, st, act⟩ := m
  cases act with
  | csHigh0 | csHigh => exact .inl rfl
  | csLow | xfer => cases ho
  | wait us => exact .inr ⟨h.2, fun _ _ => rfl⟩

/-- Chip-select rests in no open frame. -/
theorem WellPlanned.frameOpen_of_restsAt {ms : List MStep} (h : WellPlanned ms) (hr : restsAt ms = true) :
    frameOpen ms = false := by
  rcases ms with _ | ⟨⟨k, st, act⟩, ms⟩
  · rfl
  · obtain ⟨hm, -, -⟩ := h
    cases act <;> simp_all [MStep.WellPlaced, restsAt, frameOpen, Act.inside]

theorem WellPlanned.wellPlaced {ms : List MStep} (h : WellPlanned ms) : ∀ m ∈ ms, m.WellPlaced := by
  induction ms with
  | nil => simp
  | cons m ms ih =>
    obtain ⟨hm, -, hms⟩ := h
    simpa using ⟨hm, ih hms⟩

theorem WellPlanned.of_append {ms ns : List MStep} (h : WellPlanned (ms ++ ns)) : WellPlanned ns := by
  induction ms with
  | nil => exact h
  | cons m ms ih =>
    obtain ⟨-, -, hms⟩ := h
    exact ih hms

/-- Two micro-programs in sequence, the second of which begins with no frame open. -/
theorem WellPlanned.append {ms ns : List MStep} (h : WellPlanned ms) (k : WellPlanned ns)
    (hk : frameOpen ns = false) : WellPlanned (ms ++ ns) := by
  induction ms with
  | nil => exact k
  | cons m ms ih =>
    obtain ⟨hm, hopen, hms⟩ := h
    refine ⟨hm, ?_, ih hms⟩
    cases ms with
    | nil => exact hopen.trans hk.symm
    | cons n ms => exact hopen

/-! The micro-programs of the model. -/

/-- From the first transfer of a frame to its deselect. -/
theorem wellPlanned_xferSteps (k : Fin 3) (st : Step) (hst : st = .xfer0 ∨ st = .xfer1) (xs : List Xfer) :
    WellPlanned (xferSteps k st xs ++ [⟨k, .csHigh, .csHigh⟩]) ∧
      frameOpen (xferSteps k st xs ++ [⟨k, .csHigh, .csHigh⟩]) = true := by
  induction xs generalizing st with
  | nil => exact ⟨⟨rfl, rfl, trivial⟩, rfl⟩
  | cons x xs ih =>
    obtain ⟨hw, ho⟩ := ih .xfer1 (.inr rfl)
    exact ⟨⟨hst, ho.symm, hw⟩, rfl⟩

theorem wellPlanned_frameSteps (k : Fin 3) (xs : List Xfer) : WellPlanned (frameSteps k xs) :=
  have ⟨hw, ho⟩ := wellPlanned_xferSteps k .xfer0 (.inl rfl) xs
  ⟨rfl, ho.symm, hw⟩

theorem wellPlanned_bracketed (f : List Xfer) : WellPlanned (bracketed f) :=
  ((wellPlanned_frameSteps 0 _).append (wellPlanned_frameSteps 1 f) rfl).append (wellPlanned_frameSteps 2 _) rfl

theorem wellPlanned_frameSteps_wait (k : Fin 3) (xs : List Xfer) (us : Nat) :
    WellPlanned (frameSteps k xs ++ [waitStep us]) :=
  (wellPlanned_frameSteps k xs).append ⟨⟨rfl, rfl⟩, rfl, trivial⟩ rfl

theorem wellPlanned_planOf (i : Instr) (s : State) : WellPlanned (planOf i s).steps := by
  cases i with
  | init h gpio spi pin => exact ⟨rfl, rfl, wellPlanned_frameSteps 0 _⟩
  | write h buf addr len data => exact wellPlanned_bracketed _
  | writeStatusRegister h v => exact wellPlanned_bracketed _
  | sleep h => exact wellPlanned_frameSteps_wait 0 _ _
  | wake h => exact wellPlanned_frameSteps_wait 0 _ _
  | _ => exact wellPlanned_frameSteps 0 _

/-- Every micro-program begins with a pin write. -/
theorem planOf_restsAt (i : Instr) (s : State) : restsAt (planOf i s).steps = false := by
  cases i <;> rfl

/-- The steps of an instruction are the same in every state. -/
theorem planOf_steps (i : Instr) (s t : State) : (planOf i s).steps = (planOf i t).steps := by
  cases i <;> rfl

/-! What a plan's check and its stores do. -/

/-- What a plan stores before its first call: the handle or the address latch, at most. -/
structure Prepared (s t : State) : Prop where
  rq       : t.work.rq = s.work.rq
  response : t.response = s.response
  chip     : t.chip = s.chip
  pins     : t.pins = s.pins
  params   : t.params = s.params
  host     : t.host = s.host
  env      : t.env = s.env
  trace    : t.trace = s.trace
  audit    : t.audit = s.audit

theorem planOf_prepare (i : Instr) (s t : State) : Prepared t ((planOf i s).prepare t) := by
  cases i <;> exact ⟨rfl, rfl, rfl, rfl, rfl, rfl, rfl, rfl, rfl⟩

theorem eq_init_of_opOf {i : Instr} (hi : opOf i = .init) : ∃ h gpio spi pin, i = .init h gpio spi pin := by
  cases i with
  | init h gpio spi pin => exact ⟨h, gpio, spi, pin, rfl⟩
  | _ => cases hi

/-- Only `init` stores into the handle (spec/10_state.md R11). -/
theorem planOf_prepare_handle {i : Instr} (hi : opOf i ≠ .init) (s t : State) :
    ((planOf i s).prepare t).handle = t.handle := by
  cases i with
  | init => exact absurd rfl hi
  | _ => rfl

/-- Every check but `init`'s asks for a bound handle (spec/40_framing.md R94; log 7). -/
theorem planOf_valid_bound {i : Instr} (hi : opOf i ≠ .init) {s : State} (hv : (planOf i s).valid = true) :
    s.handle.bound = true := by
  cases i with
  | init => exact absurd rfl hi
  | _ =>
    simp only [planOf, planCmdWren, planCmdWrdi, planCmdRdsr, planCmdWrsr, planCmdRead, planCmdWrite, planCmdSleep,
      planCmdWake, planFrame, planWriteEnable, planWriteDisable, planRead, planWrite, planSleep, planWake,
      planReadStatusRegister, planWriteStatusRegister, planIsWriteEnabled, planIsWriteProtected,
      planIsBlockProtected, planQuery, checkHandle, Bool.and_eq_true] at hv
    tauto

/-- An operation that passes its check runs on a bound handle. -/
theorem planOf_prepare_bound {i : Instr} {s t : State} (hv : (planOf i s).valid = true) (ht : t.handle = s.handle) :
    ((planOf i s).prepare t).handle.bound = true := by
  by_cases hi : opOf i = .init
  · obtain ⟨h, gpio, spi, pin, rfl⟩ := eq_init_of_opOf hi
    rfl
  · rw [planOf_prepare_handle hi, ht]
    exact planOf_valid_bound hi hv

end Sys2Proof.Machine
end

section
/-! PROOFS. What one step of the machine can do, said once: the step (`step_steps`), and an operation that goes on
(`resume_resumes`). -/

namespace Sys2Proof.Machine

/-! Going on from a place of a micro-program. -/

/-- The rest of a micro-program from a place on stands at that place. -/
theorem stepsFrom_head {k : Fin 3} {st : Step} {ms ns : List MStep} {m : MStep} (h : stepsFrom k st ms = m :: ns) :
    m.frame = k ∧ m.step = st := by
  have := List.head?_dropWhile_not (fun m : MStep => !(m.frame == k && m.step == st)) ms
  rw [show ms.dropWhile (fun m : MStep => !(m.frame == k && m.step == st)) = m :: ns from h] at this
  simpa using this

theorem stepsFrom_suffix (k : Fin 3) (st : Step) (ms : List MStep) : stepsFrom k st ms <:+ ms :=
  List.dropWhile_suffix _

/-- There is a rest from the place of each step on. -/
theorem stepsFrom_ne_nil {ms : List MStep} {m : MStep} (h : m ∈ ms) : stepsFrom m.frame m.step ms ≠ [] := by
  rw [stepsFrom, ne_eq, List.dropWhile_eq_nil_iff]
  intro hall
  simpa using hall m h

theorem WellPlanned.stepsFrom {ms : List MStep} (h : WellPlanned ms) (k : Fin 3) (st : Step) :
    WellPlanned (stepsFrom k st ms) := by
  obtain ⟨l, hl⟩ := stepsFrom_suffix k st ms
  rw [← hl] at h
  exact h.of_append

/-- What an operation in flight, found at step `st` of frame `k`, can do. -/
inductive Resumes (s : State) (k : Fin 3) (st : Step) : State → Prop where
  /-- A position that is none of the machine's. -/
  | stays : Resumes s k st s
  | checks (i : Instr) (hst : st = .validate) (hrq : s.work.rq = some i) :
      Resumes s k st (checkAndRun (opOf i) (planOf i s) s)
  | responds (i : Instr) (hst : st = .respond) (hrq : s.work.rq = some i) :
      Resumes s k st (conclude (opOf i) (planOf i s).result (if s.work.fail then .failed s else .finished s))
  | goesOn (i : Instr) (m : MStep) (ms : List MStep) (hrq : s.work.rq = some i)
      (hms : stepsFrom k st (planOf i s).steps = m :: ms) :
      Resumes s k st (conclude (opOf i) (planOf i s).result (run (opOf i) (m :: ms) s))

theorem resumeAt_resumes {i : Instr} {s : State} (hrq : s.work.rq = some i) (k : Fin 3) (st : Step) :
    Resumes s k st (resumeAt i k st s) := by
  cases st with
  | validate => exact .checks i rfl hrq
  | respond => exact .responds i rfl hrq
  | _ =>
    simp only [resumeAt]
    split
    · exact .stays
    · next m ms hms => exact .goesOn i m ms hrq hms

theorem State.resume_resumes {s : State} {op : Op} {k : Fin 3} {st : Step} (hq : s.seq = .busy op k st) :
    Resumes s k st s.resume := by
  cases hrq : s.work.rq with
  | none => simp only [State.resume, hq, hrq]; exact .stays
  | some i => simp only [State.resume, hq, hrq]; exact resumeAt_resumes hrq k st

/-! The step. -/

/-- What one step of the machine can do when it answers a next state. -/
inductive Steps (s : State) : State → Prop where
  | reset (e : List Answer) : Steps s (s.setEnv e).applyReset
  | resumes (op : Op) (k : Fin 3) (st : Step) (t : State) (hq : s.seq = .busy op k st) (hr : Resumes s k st t) :
      Steps s t
  | rests : Steps s s
  | pauses (us : Nat) (h : List HostAct) (hq : s.seq = .idle) : Steps s ((s.setHost h).elapse us)
  | runs (i : Instr) (h : List HostAct) (hq : s.seq = .idle) :
      Steps s (runPlan i (planOf i (s.setHost h)) (s.setHost h))
  | reserved (op : BitVec 4) (h : List HostAct) (hq : s.seq = .idle) : Steps s ((s.setHost h).answerReserved op)

/-- Bytes at a port are an instruction, a request with a reserved code, or neither. -/
theorem fetchBytes_cases (sp : Space) (bs : List Byte) (s : State) :
    (∃ i, fetchBytes sp bs s = .instr i s) ∨ (∃ op, fetchBytes sp bs s = .reserved op s) ∨
      ∃ r, fetchBytes sp bs s = .bad r := by
  unfold fetchBytes
  split
  · exact .inl ⟨_, rfl⟩
  · exact .inr (.inl ⟨_, rfl⟩)
  all_goals exact .inr (.inr ⟨_, rfl⟩)

theorem fetchBytes_of_decode {sp : Space} {bs : List Byte} {i : Instr} (h : decode sp bs = .ok i) (s : State) :
    fetchBytes sp bs s = .instr i s := by
  rw [fetchBytes, h]

/-! Where no reset event is due the sequencer and the host decide what is taken up next (spec/10_state.md R14). -/

theorem State.fetch_inFlight {s : State} {op : Op} {k : Fin 3} {st : Step} (he : s.env.head? ≠ some .reset)
    (hq : s.seq = .busy op k st) :
    s.fetch = .inFlight := by
  unfold State.fetch
  split
  · next e henv => simp [henv] at he
  all_goals simp only [hq]

theorem State.fetch_nothing {s : State} (he : s.env.head? ≠ some .reset) (hq : s.seq = .idle)
    (hh : s.host = []) :
    s.fetch = .nothing := by
  unfold State.fetch
  split
  · next e henv => simp [henv] at he
  all_goals simp only [hq, hh]

theorem State.fetch_pause {s : State} {us : Nat} {h : List HostAct} (he : s.env.head? ≠ some .reset)
    (hq : s.seq = .idle) (hh : s.host = .pause us :: h) :
    s.fetch = .pause us (s.setHost h) := by
  unfold State.fetch
  split
  · next e henv => simp [henv] at he
  all_goals simp only [hq, hh]

theorem State.fetch_request {s : State} {bs : List Byte} {h : List HostAct} (he : s.env.head? ≠ some .reset)
    (hq : s.seq = .idle) (hh : s.host = .request bs :: h) :
    s.fetch = fetchBytes .host bs (s.setHost h) := by
  unfold State.fetch
  split
  · next e henv => simp [henv] at he
  all_goals simp only [hq, hh]

theorem State.fetch_frame {s : State} {bs : List Byte} {h : List HostAct} (he : s.env.head? ≠ some .reset)
    (hq : s.seq = .idle) (hh : s.host = .frame bs :: h) :
    s.fetch = fetchBytes .spi bs (s.setHost h) := by
  unfold State.fetch
  split
  · next e henv => simp [henv] at he
  all_goals simp only [hq, hh]

theorem step_steps {s t : State} (h : step s = .next t) : Steps s t := by
  by_cases he : s.env.head? = some .reset
  · obtain ⟨e, he⟩ := List.head?_eq_some_iff.mp he
    simp only [step, State.fetch, he] at h
    cases h
    exact .reset e
  cases hq : s.seq with
  | busy op k st =>
    rw [step, State.fetch_inFlight he hq] at h
    cases h
    exact .resumes op k st _ hq (State.resume_resumes hq)
  | idle =>
    have taken : ∀ sp bs ho, s.fetch = fetchBytes sp bs (s.setHost ho) → Steps s t := by
      intro sp bs ho hfetch
      rw [step, hfetch] at h
      rcases fetchBytes_cases sp bs (s.setHost ho) with ⟨i, hb⟩ | ⟨op, hb⟩ | ⟨r, hb⟩ <;>
        simp only [hb, exec_eq] at h <;> cases h
      · exact .runs i ho hq
      · exact .reserved op ho hq
    rcases hh : s.host with _ | ⟨⟨bs⟩ | ⟨bs⟩ | ⟨us⟩, ho⟩
    · rw [step, State.fetch_nothing he hq hh] at h
      cases h
      exact .rests
    · exact taken _ bs ho (State.fetch_request he hq hh)
    · exact taken _ bs ho (State.fetch_frame he hq hh)
    · rw [step, State.fetch_pause he hq hh] at h
      cases h
      exact .pauses us ho hq

/-- Settles O9: with no reset event due and the framer idle the step fetches what stands at the port, and that decodes
to the instruction. -/
theorem stepRunsTheDecodedInstruction : Obligations.StepRunsTheDecodedInstruction := by
  unfold Obligations.StepRunsTheDecodedInstruction
  intro s bs rest i he hq
  refine ⟨fun hh hd => ?_, fun hh hd => ?_⟩
  · rw [step, State.fetch_request he hq hh, fetchBytes_of_decode hd]
  · rw [step, State.fetch_frame he hq hh, fetchBytes_of_decode hd]

end Sys2Proof.Machine
end

section
/-! PROOFS. The framer's invariant (spec/10_state.md R11, R13, R14, spec/40_framing.md R82, R94) at every step. -/

namespace Sys2Proof.Machine

theorem Handle.boundBits_of_bound {h : Handle} (hb : h.bound = true) : h.gpioBound = h.spiBound := by
  simp only [Handle.bound, Bool.and_eq_true] at hb
  rw [hb.1, hb.2]

/-- Between operations: the BOUND bits agree and chip-select is not LOW. -/
structure State.Rested (s : State) : Prop where
  boundBits : s.handle.gpioBound = s.handle.spiBound
  level     : s.chip.csLevel ≠ .low

theorem State.Rested.framerInv {s : State} (h : s.Rested) (hq : s.seq = .idle) : s.FramerInv := by
  refine ⟨h.boundBits, ?_⟩
  rw [hq]
  exact fun _ => h.level

/-- An unbound handle between operations asks nothing of chip-select. -/
theorem State.framerInv_of_unbound {s : State} (hg : s.handle.gpioBound = false) (hs : s.handle.spiBound = false)
    (hq : s.seq = .idle) : s.FramerInv := by
  refine ⟨hg.trans hs.symm, ?_⟩
  rw [hq]
  exact fun hb => absurd hb (by simp [Handle.bound, hg])

/-- The framer idle, the invariant depends on the handle and on chip-select. -/
theorem State.FramerInv.of_idle {s t : State} (h : s.FramerInv) (hq : s.seq = .idle) (hq' : t.seq = .idle)
    (hh : t.handle = s.handle) (hc : t.chip.csLevel = s.chip.csLevel) : t.FramerInv := by
  obtain ⟨hbits, hseq⟩ := h
  rw [hq] at hseq
  refine ⟨by rw [hh]; exact hbits, ?_⟩
  rw [hq', hh, hc]
  exact hseq

/-- An operation under way with the rest `ms` of its micro-program still to make. -/
structure State.UnderWay (i : Instr) (ms : List MStep) (s : State) : Prop where
  planned  : WellPlanned ms
  steps    : ∀ m ∈ ms, m ∈ (planOf i s).steps
  bound    : s.handle.bound = true
  response : s.response = none
  rq       : s.work.rq = some i
  level    : restsAt ms = true → s.chip.csLevel ≠ .low

theorem State.UnderWay.rested {i : Instr} {s : State} (h : s.UnderWay i []) : s.Rested :=
  ⟨Handle.boundBits_of_bound h.bound, h.level rfl⟩

/-- The next step has been passed: chip-select rests where the program does. -/
theorem State.UnderWay.next {i : Instr} {m : MStep} {ms : List MStep} {s t : State} (h : s.UnderWay i (m :: ms))
    (hf : StepFrame s t) (hl : m.act.leavesOpen = false → t.chip.csLevel ≠ .low) :
    t.UnderWay i ms := by
  obtain ⟨-, hopen, hms⟩ := h.planned
  refine ⟨hms, fun n hn => ?_, hf.handle ▸ h.bound, hf.response.trans h.response, hf.rq.trans h.rq, fun hr => ?_⟩
  · rw [planOf_steps i t s]
    exact h.steps n (List.mem_cons_of_mem m hn)
  · exact hl (hopen.trans (hms.frameOpen_of_restsAt hr))

theorem Level.after_high_ne_low (ok : Bool) : Level.high.after ok ≠ .low := by cases ok <;> simp [Level.after]

/-- Where a step leaves no frame open it was a pin write HIGH, or a wait with chip-select at rest already. -/
theorem State.UnderWay.level_after {i : Instr} {m : MStep} {ms : List MStep} {s : State} (h : s.UnderWay i (m :: ms))
    (ho : m.act.leavesOpen = false) (ok : Bool) : m.act.levelAfter ok s.chip.csLevel ≠ .low := by
  obtain ⟨hm, -, -⟩ := h.planned
  rcases hm.high_or_wait ho with hd | ⟨hst, hw⟩
  · rw [Act.levelAfter_of_drivesHigh hd]
    exact Level.after_high_ne_low ok
  · rw [hw]
    exact h.level (by simp [restsAt, hst])

/-- A step that stands open leaves the operation in flight at its place. -/
theorem State.UnderWay.framerInv_of_open {i : Instr} {m : MStep} {ms : List MStep} {s t : State}
    (h : s.UnderWay i (m :: ms)) (ho : StepOpen (opOf i) m s t) : t.FramerInv := by
  have hb : t.handle.bound = true := by rw [ho.handle]; exact h.bound
  refine ⟨Handle.boundBits_of_bound hb, ?_⟩
  rw [ho.seq]
  refine ⟨hb, ho.response.trans h.response, fun hst => ?_, i, ho.rq.trans h.rq, rfl, ?_⟩
  · rw [ho.chip]
    exact h.level (by simp [restsAt, hst])
  · rw [planOf_steps i t s]
    exact stepsFrom_ne_nil (h.steps m List.mem_cons_self)

/-- One step of an operation under way. -/
theorem perform_underWay {i : Instr} {m : MStep} {ms : List MStep} {s : State} (h : s.UnderWay i (m :: ms)) :
    (perform (opOf i) m s).Holds (State.UnderWay i ms) State.Rested State.FramerInv := by
  obtain ⟨hm, -, -⟩ := h.planned
  refine perform_holds hm fun r hr => ?_
  cases hr with
  | skipped x ha hf => exact h.next (.refl s) (by simp [ha, Act.leavesOpen])
  | passes ok t hm' hp => exact h.next hm'.toStepFrame fun ho => hm'.csLevel ▸ h.level_after ho ok
  | aborts ok t hm' hd =>
    refine ⟨by rw [hm'.handle]; exact Handle.boundBits_of_bound h.bound, ?_⟩
    rw [hm'.csLevel, Act.levelAfter_of_drivesHigh hd]
    exact Level.after_high_ne_low ok
  | stands t ho => exact h.framerInv_of_open ho
  | reset t ho => exact State.framerInv_of_unbound rfl rfl rfl

theorem State.Rested.raiseCapabilityFailure {s : State} (h : s.Rested) (op : Op) :
    (s.raiseCapabilityFailure op).Rested := by
  obtain ⟨b, lv, hc, rfl⟩ := s.raiseCapabilityFailure_chip op
  refine ⟨by rw [s.raiseCapabilityFailure_handle]; exact h.boundBits, ?_⟩
  rw [hc]
  dsimp only
  split
  · simp
  · exact h.level

/-- From an operation under way to its response, or to where it is held. -/
theorem conclude_framerInv {i : Instr} {ms : List MStep} {s : State} (h : s.UnderWay i ms) (result : State → Result) :
    (conclude (opOf i) result (run (opOf i) ms s)).FramerInv := by
  refine conclude_holds _ _ (run_holds (fun _ _ _ => perform_underWay) h) (fun t ht => ?_) (fun t ht => ?_)
    fun t ht => ht
  · rw [State.respondOk_eq]
    exact State.Rested.framerInv ⟨ht.rested.boundBits, ht.rested.level⟩ rfl
  · exact (ht.raiseCapabilityFailure _).framerInv (State.raiseCapabilityFailure_seq _ _)

/-- An instruction taken up by an idle framer. -/
theorem runPlan_framerInv {s : State} (h : s.FramerInv) (hq : s.seq = .idle) (i : Instr) :
    (runPlan i (planOf i s) s).FramerInv := by
  cases hv : (planOf i s).valid with
  | false =>
    rw [runPlan_invalid _ _ _ hv]
    exact h.of_idle hq rfl rfl rfl
  | true =>
    rw [runPlan_valid _ _ _ hv]
    have hp := planOf_prepare i s (s.accept i)
    have hu : ((planOf i s).prepare (s.accept i)).UnderWay i (planOf i s).steps :=
      ⟨wellPlanned_planOf i s, fun m hm => by rwa [planOf_steps i _ s], planOf_prepare_bound hv rfl, hp.response, hp.rq,
        fun hr => absurd hr (by simp [planOf_restsAt])⟩
    exact conclude_framerInv hu _

/-- An operation in flight that goes on. -/
theorem resumes_framerInv {s t : State} {op : Op} {k : Fin 3} {st : Step} (h : s.FramerInv)
    (hq : s.seq = .busy op k st) (hr : Resumes s k st t) : t.FramerInv := by
  have hseq := h.2
  rw [hq] at hseq
  obtain ⟨hbound, hresp, hlevel, i, hrq, -, hne⟩ := hseq
  obtain ⟨m, ms, hms⟩ := List.exists_cons_of_ne_nil hne
  obtain ⟨-, hst⟩ := stepsFrom_head hms
  have hw : WellPlanned (m :: ms) := hms ▸ (wellPlanned_planOf i s).stepsFrom k st
  have hcall := (hw.wellPlaced m List.mem_cons_self).step_isCall
  rw [hst] at hcall
  cases hr with
  | stays => exact h
  | checks j hj => exact absurd hj hcall.1
  | responds j hj => exact absurd hj hcall.2
  | goesOn j n ns hrq' hns =>
    obtain rfl : i = j := Option.some.inj (hrq.symm.trans hrq')
    obtain ⟨rfl, rfl⟩ := List.cons.inj (hms.symm.trans hns)
    have hu : s.UnderWay i (m :: ms) :=
      ⟨hw, fun x hx => (stepsFrom_suffix k st _).subset (hms ▸ hx), hbound, hresp, hrq,
        fun hr => hlevel (by simpa [restsAt, hst] using hr)⟩
    exact conclude_framerInv hu _

/-- Settles O55: the step does one of six things; an operation started or gone on with keeps `State.UnderWay` from step
to step of its micro-program. -/
theorem stepKeepsTheFramerInvariant : Obligations.StepKeepsTheFramerInvariant := by
  unfold Obligations.StepKeepsTheFramerInvariant
  intro s t h hst
  cases step_steps hst with
  | reset e => exact State.framerInv_of_unbound rfl rfl rfl
  | resumes op k st _ hq hr => exact resumes_framerInv h hq hr
  | rests => exact h
  | pauses us ho hq => exact h.of_idle hq hq rfl rfl
  | runs i ho hq => exact runPlan_framerInv (s := s.setHost ho) (h.of_idle hq hq rfl rfl) hq i
  | reserved op ho hq => exact h.of_idle hq rfl rfl rfl

end Sys2Proof.Machine
end

section
/-! PROOFS. The invariant of the wire (spec/10_state.md R19, R20; log 23) at every step. -/

namespace Sys2Proof.Machine

/-- On a bound handle the chip-select wire has the level of the handle's pin. -/
def State.WireOnPin (s : State) : Prop :=
  s.handle.bound = true → s.chip.csLevel = s.pinLevel s.handle.csPin

theorem State.WireOnPin.wireInv {s : State} (h : s.WireOnPin) : s.WireInv := fun hb _ => h hb

theorem State.WireInv.wireOnPin {s : State} (h : s.WireInv) (hq : ∀ op k, s.seq ≠ .busy op k .csHigh0) :
    s.WireOnPin :=
  fun hb => h hb hq

theorem State.WireOnPin.of_eq {s t : State} (h : s.WireOnPin) (hh : t.handle = s.handle)
    (hc : t.chip.csLevel = s.chip.csLevel) (hp : t.pins = s.pins) : t.WireOnPin := by
  intro hb
  rw [hh] at hb
  rw [hc, h hb]
  simp only [State.pinLevel, hh, hp]

theorem State.wireOnPin_of_unbound {s : State} (h : s.handle.bound = false) : s.WireOnPin :=
  fun hb => absurd hb (by simp [h])

/-- Where the rest `ms` of a micro-program begins the wire is on the handle's pin, unless `init`'s pin write comes
next. -/
structure State.WireUnderWay (ms : List MStep) (s : State) : Prop where
  placed : ∀ m ∈ ms, m.WellPlaced
  wire   : ms.head?.map MStep.act ≠ some .csHigh0 → s.WireOnPin

/-- A step moves the wire and the handle's pin together, and a pin write brings them together. -/
theorem StepMade.wireOnPin {m : MStep} {ms : List MStep} {ok : Bool} {s t : State} (h : StepMade m.act ok s t)
    (hw : s.WireUnderWay (m :: ms)) : t.WireOnPin := by
  intro hb
  rw [h.handle] at hb ⊢
  rw [h.csLevel, h.pin]
  by_cases ha : m.act = .csHigh0
  · rw [ha]
    rfl
  · rw [hw.wire (by simpa using ha) hb]

theorem perform_wireUnderWay {op : Op} {m : MStep} {ms : List MStep} {s : State} (h : s.WireUnderWay (m :: ms)) :
    (perform op m s).Holds (State.WireUnderWay ms) State.WireOnPin State.WireInv := by
  have hm := h.placed m List.mem_cons_self
  have hms : ∀ n ∈ ms, n.WellPlaced := fun n hn => h.placed n (List.mem_cons_of_mem m hn)
  refine perform_holds hm fun r hr => ?_
  cases hr with
  | skipped x ha hf => exact ⟨hms, fun _ => h.wire (by simp [ha])⟩
  | passes ok t hm' hp => exact ⟨hms, fun _ => hm'.wireOnPin h⟩
  | aborts ok t hm' hd => exact hm'.wireOnPin h
  | stands t ho =>
    intro hb hq
    have ha : m.act ≠ .csHigh0 := fun ha => hq op m.frame (by rw [ho.seq, hm.step_of_csHigh0 ha])
    exact (h.wire (by simpa using ha)).of_eq ho.handle (congrArg Chip.csLevel ho.chip) ho.pins hb
  | reset t ho => exact (State.wireOnPin_of_unbound rfl).wireInv

theorem State.WireOnPin.raiseCapabilityFailure {s : State} (h : s.WireOnPin) (op : Op) :
    (s.raiseCapabilityFailure op).WireOnPin := by
  intro hb
  rw [s.raiseCapabilityFailure_handle] at hb ⊢
  obtain ⟨b, lv, hc, rfl⟩ := s.raiseCapabilityFailure_chip op
  rw [hc, s.raiseCapabilityFailure_pinLevel]
  by_cases hp : s.audit.pinFailed = true
  · simp [hp]
  · simpa [hp] using h hb

theorem State.WireOnPin.respondOk {s : State} (h : s.WireOnPin) (r : Result) (op : Op) (f : Bool) :
    ((s.respondOk r).noteOutcome op f).WireOnPin := by
  rw [State.respondOk_eq]
  exact h.of_eq rfl rfl rfl

theorem conclude_wireInv {ms : List MStep} {s : State} (h : s.WireUnderWay ms) (op : Op) (result : State → Result) :
    (conclude op result (run op ms s)).WireInv :=
  conclude_holds op result (run_holds (fun _ _ _ => perform_wireUnderWay) h)
    (fun _ ht => ((ht.wire (by simp)).respondOk _ _ _).wireInv) (fun _ ht => (ht.raiseCapabilityFailure op).wireInv)
    fun _ ht => ht

/-- From VALIDATE on: `init` may bind another pin, and then drives it HIGH before anything else. -/
theorem checkAndRun_wireInv {s t : State} (h : t.WireOnPin) (i : Instr) :
    (checkAndRun (opOf i) (planOf i s) t).WireInv := by
  rw [checkAndRun]
  split
  · refine conclude_wireInv ⟨(wellPlanned_planOf i s).wellPlaced, fun hne => ?_⟩ _ _
    have hi : opOf i ≠ .init := fun hi => by
      obtain ⟨h, gpio, spi, pin, rfl⟩ := eq_init_of_opOf hi
      exact hne rfl
    have hp := planOf_prepare i s t
    exact h.of_eq (planOf_prepare_handle hi s t) (congrArg Chip.csLevel hp.chip) hp.pins
  · exact State.WireOnPin.wireInv (.of_eq h rfl rfl rfl)

theorem resumes_wireInv {s t : State} {op : Op} {k : Fin 3} {st : Step} (h : s.WireInv) (hq : s.seq = .busy op k st)
    (hr : Resumes s k st t) : t.WireInv := by
  have hwire : st ≠ .csHigh0 → s.WireOnPin := fun hst => h.wireOnPin fun op' k' hq' => by
    rw [hq] at hq'
    injection hq' with _ _ hst'
    exact hst hst'
  cases hr with
  | stays => exact h
  | checks i hst => exact checkAndRun_wireInv (hwire (by simp [hst])) i
  | responds i hst =>
    have hs := hwire (by simp [hst])
    split
    · exact (hs.raiseCapabilityFailure _).wireInv
    · exact (hs.respondOk _ _ _).wireInv
  | goesOn i m ms hrq hms =>
    have hw : WellPlanned (m :: ms) := hms ▸ (wellPlanned_planOf i s).stepsFrom k st
    refine conclude_wireInv ⟨hw.wellPlaced, fun hne => hwire ?_⟩ _ _
    rintro rfl
    obtain ⟨-, hst⟩ := stepsFrom_head hms
    exact hne (congrArg some ((hw.wellPlaced m List.mem_cons_self).csHigh0_of_step hst))

/-- Settles O56: the step does one of six things; along a micro-program `State.WireUnderWay` is kept, since a step moves
the wire and the handle's pin together. -/
theorem stepKeepsTheWireOnItsPin : Obligations.StepKeepsTheWireOnItsPin := by
  unfold Obligations.StepKeepsTheWireOnItsPin
  intro s t h hst
  have idle : s.seq = .idle → s.WireOnPin := fun hq => h.wireOnPin (by simp [hq])
  cases step_steps hst with
  | reset e => exact (State.wireOnPin_of_unbound rfl).wireInv
  | resumes op k st _ hq hr => exact resumes_wireInv h hq hr
  | rests => exact h
  | pauses us ho hq => exact State.WireOnPin.wireInv (.of_eq (idle hq) rfl rfl rfl)
  | runs i ho hq => exact checkAndRun_wireInv (t := (s.setHost ho).accept i) (.of_eq (idle hq) rfl rfl rfl) i
  | reserved op ho hq => exact State.WireOnPin.wireInv (.of_eq (idle hq) rfl rfl rfl)

end Sys2Proof.Machine
end

section
/-! PROOFS. What an instruction leaves alone: the handle, and every pin but the handle's (spec/10_state.md R11, R19). -/

namespace Sys2Proof.Machine

/-! A rejected instruction. -/

theorem runPlan_rejected {i : Instr} {s : State} (h : (planOf i s).valid = false) :
    Rejected i s (runPlan i (planOf i s) s) := by
  rw [runPlan_invalid _ _ _ h]
  exact ⟨by simp, ⟨_, rfl, rfl, rfl⟩, rfl, rfl, rfl, rfl, rfl, rfl⟩

/-- Settles O16: the check of a lone frame asks for a bound handle and, where there is a payload, for one that fits. -/
theorem loneFramesChecked : Obligations.LoneFramesChecked := by
  unfold Obligations.LoneFramesChecked
  intro i s hi h
  refine ⟨_, exec_eq i s, runPlan_rejected ?_⟩
  rcases h with hb | ⟨a, n, rfl, hp⟩ | ⟨a, d, rfl, hp⟩
  · have hne : opOf i ≠ .init := fun hop => by
      obtain ⟨h, gpio, spi, pin, rfl⟩ := eq_init_of_opOf hop
      cases hi
    by_contra hv
    rw [planOf_valid_bound hne (Bool.eq_true_of_not_eq_false hv)] at hb
    cases hb
  · simp [planOf, planCmdRead, planFrame, hp]
  · simp [planOf, planCmdWrite, planFrame, hp]

/-! The pins along a micro-program. -/

/-- A step that shows no call is a wait. -/
theorem Act.Shows.isCall {a : Act} {e : Event} (h : a.Shows e) (hc : e.isCall = false) : a.writesPin = false := by
  cases h with
  | csHigh0 | csLow | csHigh | xfer => cases hc
  | wait => rfl

theorem Act.writesPin_of_drivesHigh {a : Act} (h : a.drivesHigh = true) : a.writesPin = true := by
  cases a with
  | csHigh0 | csHigh => rfl
  | csLow | xfer | wait => cases h

theorem Act.Shows.pinFailed {a : Act} {e : Event} (h : a.Shows e) {ok : Bool}
    (hok : ∀ p l b, e = .pin p l b → b = ok) : e.pinFailed = (a.writesPin && !ok) := by
  cases h with
  | csHigh0 p b | csLow _ p b | csHigh p b => rw [hok p _ b rfl]; rfl
  | xfer | wait => rfl

/-- From `s` to `t` the events `l` were shown, every pin write of them to the handle's pin; no other pin moved, the
handle's own moved in a call only, and the record says whether a pin write failed. -/
structure DrivesOwnPin (s t : State) (l : List Event) : Prop extends StepFrame s t where
  trace     : t.trace = s.trace ++ l
  own       : ∀ p lv ok, .pin p lv ok ∈ l → p = s.handle.csPin
  others    : ∀ p, p ≠ s.handle.csPin → t.pinLevel p = s.pinLevel p
  quiet     : (∀ e ∈ l, e.isCall = false) → t.pinLevel s.handle.csPin = s.pinLevel s.handle.csPin
  pinFailed : t.audit.pinFailed = (s.audit.pinFailed || l.any Event.pinFailed)

theorem DrivesOwnPin.refl (s : State) : DrivesOwnPin s s [] :=
  ⟨.refl s, by simp, by simp, fun _ _ => rfl, fun _ => rfl, by simp⟩

theorem DrivesOwnPin.trans {s t u : State} {l l' : List Event} (h : DrivesOwnPin s t l) (k : DrivesOwnPin t u l') :
    DrivesOwnPin s u (l ++ l') where
  toStepFrame := h.toStepFrame.trans k.toStepFrame
  trace := by rw [k.trace, h.trace, List.append_assoc]
  own p lv ok hm := (List.mem_append.mp hm).elim (h.own p lv ok) fun hm => h.handle ▸ k.own p lv ok hm
  others p hp := (k.others p (h.handle ▸ hp)).trans (h.others p hp)
  quiet hq := by
    have hk := k.quiet fun e he => hq e (List.mem_append_right l he)
    rw [h.handle] at hk
    rw [hk, h.quiet fun e he => hq e (List.mem_append_left l' he)]
  pinFailed := by rw [k.pinFailed, h.pinFailed, List.any_append, Bool.or_assoc]

theorem StepMade.drivesOwnPin {a : Act} {ok : Bool} {s t : State} (h : StepMade a ok s t) :
    ∃ e, DrivesOwnPin s t [e] := by
  obtain ⟨e, htrace, hshows, hpin⟩ := h.event
  refine ⟨e, h.toStepFrame, htrace, fun p lv b hm => ?_, h.others, fun hq => ?_, ?_⟩
  · exact (hpin p lv b (List.mem_singleton.mp hm).symm).1
  · rw [h.pin, Act.levelAfter_of_noPin (hshows.isCall (hq e List.mem_cons_self))]
  · rw [h.pinFailed, List.any_cons, List.any_nil, Bool.or_false, hshows.pinFailed fun p l b he => (hpin p l b he).2]

/-- An operation begun at `s`, with the rest `ms` of its micro-program still to make, in an environment that answers: a
pin write has failed only where FAIL says so in an open frame, and chip-select rests HIGH. -/
structure State.Driven (s : State) (ms : List MStep) (t : State) : Prop where
  answered : s.Answered
  planned  : WellPlanned ms
  drives   : ∃ l, DrivesOwnPin s t l
  fail     : t.audit.pinFailed = true → frameOpen ms = true ∧ t.work.fail = true
  high     : restsAt ms = true → t.pinLevel s.handle.csPin = .high

/-- An operation begun at `s` has failed: its last pin write was a HIGH. -/
structure State.DrivenHigh (s t : State) : Prop where
  drives : ∃ l, DrivesOwnPin s t l
  high   : t.audit.pinFailed = false → t.pinLevel s.handle.csPin = .high

/-- After a step passed, a pin write has failed only where FAIL says so in an open frame. -/
theorem StepMade.fail_of_passes {a : Act} {ok : Bool} {s t : State} (h : StepMade a ok s t) (hp : a.Passes ok s t)
    (hs : s.audit.pinFailed = true → a.inside = true ∧ s.work.fail = true) (ht : t.audit.pinFailed = true) :
    a.leavesOpen = true ∧ t.work.fail = true := by
  rw [h.pinFailed] at ht
  cases a <;> simp_all [Act.Passes, Act.writesPin, Act.inside, Act.leavesOpen]

theorem perform_driven {op : Op} {m : MStep} {ms : List MStep} {s t : State} (h : s.Driven (m :: ms) t) :
    (perform op m t).Holds (s.Driven ms) s.DrivenHigh fun _ => False := by
  obtain ⟨hm, hopen, hms⟩ := h.planned
  obtain ⟨l, hl⟩ := h.drives
  have hhigh := h.high
  rw [← hl.handle] at hhigh
  have hrest : restsAt ms = true → m.act.leavesOpen = false := fun hr => hopen.trans (hms.frameOpen_of_restsAt hr)
  refine perform_holds hm fun r hr => ?_
  cases hr with
  | skipped x ha hf =>
    have ho : m.act.leavesOpen = true := by rw [ha]; rfl
    exact ⟨h.answered, hms, h.drives, fun _ => ⟨hopen ▸ ho, hf⟩, fun hr => by simp [hrest hr] at ho⟩
  | passes ok u hu hp =>
    obtain ⟨e, he⟩ := hu.drivesOwnPin
    refine ⟨h.answered, hms, ⟨_, hl.trans he⟩, fun hf => ?_, fun hr => ?_⟩
    · rw [← hopen]
      exact hu.fail_of_passes hp h.fail hf
    · rw [← hl.handle, hu.pin]
      rcases hm.high_or_wait (hrest hr) with hd | ⟨hst, hw⟩
      · rw [Act.levelAfter_of_drivesHigh hd, hp.ok_of_drivesHigh hd]
        rfl
      · rw [hw]
        exact hhigh (by simp [restsAt, hst])
  | aborts ok u hu hd =>
    obtain ⟨e, he⟩ := hu.drivesOwnPin
    refine ⟨⟨_, hl.trans he⟩, fun hf => ?_⟩
    have hok : ok = true := by
      rw [hu.pinFailed, Act.writesPin_of_drivesHigh hd] at hf
      simpa using (Bool.or_eq_false_iff.mp hf).2
    rw [← hl.handle, hu.pin, Act.levelAfter_of_drivesHigh hd, hok]
    rfl
  | stands u ho hn => exact hn (hl.answered h.answered)
  | reset u ho hn => exact hn (hl.answered h.answered)

/-- An instruction whose check passes, in an environment that answers: how its micro-program ends. -/
theorem run_driven {i : Instr} {s : State} (hs : s.Answered) :
    let u := (planOf i s).prepare (s.accept i)
    (run (opOf i) (planOf i s).steps u).Holds (u.Driven []) u.DrivenHigh fun _ => False := by
  intro u
  have hu : Prepared (s.accept i) u := planOf_prepare i s _
  refine run_holds (fun _ _ _ => perform_driven) ⟨fun a ha => hs a (hu.env ▸ ha), wellPlanned_planOf i s, ⟨[], .refl u⟩,
    fun hf => ?_, fun hr => ?_⟩
  · rw [hu.audit, State.accept_pinFailed] at hf
    cases hf
  · rw [planOf_restsAt] at hr
    cases hr

/-! From the end of the micro-program to the response. -/

/-- What the obligation says of the pins, of an instruction that showed the events `l`. -/
structure PinsDriven (s t : State) (l : List Event) : Prop where
  trace  : t.trace = s.trace ++ l
  own    : ∀ p lv ok, .pin p lv ok ∈ l → p = t.handle.csPin
  others : ∀ p, p ≠ t.handle.csPin → t.pinLevel p = s.pinLevel p
  failed : (∃ e ∈ l, e.pinFailed = true) → t.pinLevel t.handle.csPin = .unknown
  high   : (∀ e ∈ l, e.pinFailed = false) → (∃ e ∈ l, e.isCall = true) → t.pinLevel t.handle.csPin = .high
  quiet  : (∀ e ∈ l, e.isCall = false) → t.pins = s.pins

theorem State.pins_eq_of_pinLevel {s t : State} (h : ∀ p, t.pinLevel p = s.pinLevel p) : t.pins = s.pins := by
  ext i hi
  have := h (BitVec.ofNat 8 i)
  simpa [State.pinLevel, Nat.mod_eq_of_lt hi] using this

/-- Request and response are no calls: what a call shows is among the events between them. -/
theorem mem_of_isCall {i : Instr} {l : List Event} {e : Event} {st v sr d}
    (he : e ∈ .req i :: (l ++ [.rsp st v sr d])) (hc : e.isCall = true) : e ∈ l := by
  simp only [List.mem_cons, List.mem_append, List.not_mem_nil, or_false] at he
  rcases he with rfl | he | rfl
  · cases hc
  · exact he
  · cases hc

theorem Event.isCall_of_pinFailed {e : Event} (h : e.pinFailed = true) : e.isCall = true := by
  cases e with
  | pin => rfl
  | req | reqReserved | xfer | wait | rsp => cases h

/-- From a micro-program's events `l` to those of the instruction: the response moves no pin, but that the level of the
handle's is forgotten where a pin write has failed. -/
theorem DrivesOwnPin.pinsDriven {i : Instr} {s u t t' : State} {l : List Event} (h : DrivesOwnPin u t l)
    (hu : Prepared (s.accept i) u)
    (hhigh : t.audit.pinFailed = false → (∃ e ∈ l, e.isCall = true) → t.pinLevel u.handle.csPin = .high)
    {st v sr d} (htrace : t'.trace = t.trace ++ [.rsp st v sr d]) (hh : t'.handle = t.handle)
    (hp : ∀ p, t'.pinLevel p = if t.audit.pinFailed = true ∧ t.handle.csPin = p then .unknown else t.pinLevel p) :
    PinsDriven s t' (.req i :: (l ++ [.rsp st v sr d])) := by
  have hpin : ∀ p, u.pinLevel p = s.pinLevel p := fun p => by simp only [State.pinLevel, hu.pins, State.accept_pins]
  have hhandle : t'.handle.csPin = u.handle.csPin := by rw [hh, h.handle]
  have hfailed : t.audit.pinFailed = l.any Event.pinFailed := by
    rw [h.pinFailed, hu.audit, State.accept_pinFailed, Bool.false_or]
  have hnone : (∀ e ∈ l, e.pinFailed = false) → t.audit.pinFailed = false := fun hf => by
    rw [hfailed, List.any_eq_false]
    exact fun e he => by simp [hf e he]
  constructor
  · rw [htrace, h.trace, hu.trace]
    simp
  · rw [hhandle]
    exact fun p lv ok hm => h.own p lv ok (mem_of_isCall hm rfl)
  · rw [hhandle]
    intro p hne
    rw [hp, if_neg (by rw [h.handle]; exact fun hc => hne hc.2.symm), h.others p hne, hpin]
  · rintro ⟨e, he, hf⟩
    have hl : l.any Event.pinFailed = true :=
      List.any_eq_true.mpr ⟨e, mem_of_isCall he (Event.isCall_of_pinFailed hf), hf⟩
    rw [hp, if_pos ⟨hfailed.trans hl, by rw [hh]⟩]
  · rintro hf ⟨e, he, hc⟩
    have hn := hnone fun e he => hf e (by simp [he])
    rw [hp, if_neg (by simp [hn]), hhandle]
    exact hhigh hn ⟨e, mem_of_isCall he hc, hc⟩
  · intro hq
    have hq' : ∀ e ∈ l, e.isCall = false := fun e he => hq e (by simp [he])
    have hn := hnone fun e he => Bool.eq_false_of_not_eq_true fun hf => by
      simpa [hq' e he] using Event.isCall_of_pinFailed hf
    refine State.pins_eq_of_pinLevel fun p => ?_
    rw [hp, if_neg (by simp [hn])]
    by_cases hc : p = u.handle.csPin
    · rw [hc, h.quiet hq', hpin]
    · rw [h.others p hc, hpin]

theorem runPlan_pinsDriven {i : Instr} {s : State} (hs : s.Answered) :
    ∃ l, PinsDriven s (runPlan i (planOf i s) s) l := by
  cases hv : (planOf i s).valid with
  | false =>
    rw [runPlan_invalid _ _ _ hv]
    exact ⟨_, (DrivesOwnPin.refl (s.accept i)).pinsDriven ⟨rfl, rfl, rfl, rfl, rfl, rfl, rfl, rfl, rfl⟩ (by simp)
      (State.respond_trace _ _ _ _ _) rfl (by simp [State.pinLevel])⟩
  | true =>
    rw [runPlan_valid _ _ _ hv]
    have hu := planOf_prepare i s (s.accept i)
    refine conclude_holds (P := fun t => ∃ l, PinsDriven s t l) _ _ (run_driven hs) (fun t ht => ?_) (fun t ht => ?_)
      fun t ht => ht.elim
    · obtain ⟨l, hl⟩ := ht.drives
      have hn : t.audit.pinFailed = false := Bool.eq_false_of_not_eq_true fun hf => by
        simpa [frameOpen] using (ht.fail hf).1
      rw [State.respondOk_eq]
      exact ⟨_, hl.pinsDriven hu (fun _ _ => ht.high rfl) (State.respond_trace _ _ _ _ _) rfl
        fun p => by simp [hn, State.pinLevel]⟩
    · obtain ⟨l, hl⟩ := ht.drives
      exact ⟨_, hl.pinsDriven hu (fun hn _ => ht.high hn) (State.raiseCapabilityFailure_trace _ _)
        (State.raiseCapabilityFailure_handle _ _) (State.raiseCapabilityFailure_pinLevel _ _)⟩

/-- Settles O57: along the micro-program every pin write goes to the handle's pin, and the last one is a HIGH. -/
theorem onlyTheHandlesPinIsDriven : Obligations.OnlyTheHandlesPinIsDriven := by
  unfold Obligations.OnlyTheHandlesPinIsDriven
  intro i s hs
  obtain ⟨l, h⟩ := runPlan_pinsDriven (i := i) hs
  exact ⟨_, l, exec_eq i s, h.trace, h.own, h.others, h.failed, h.high, h.quiet⟩

/-! The handle. -/

/-- An instruction whose check passes leaves the handle its stores made, whatever its calls answer. -/
theorem runPlan_handle {i : Instr} {s : State} (hs : s.Answered) (hv : (planOf i s).valid = true) :
    (runPlan i (planOf i s) s).handle = ((planOf i s).prepare (s.accept i)).handle ∧
      (runPlan i (planOf i s) s).params = s.params ∧ (runPlan i (planOf i s) s).host = s.host := by
  rw [runPlan_valid _ _ _ hv]
  set u := (planOf i s).prepare (s.accept i) with hu
  have hprep : Prepared (s.accept i) u := planOf_prepare i s _
  refine conclude_holds (P := fun t => t.handle = u.handle ∧ t.params = s.params ∧ t.host = s.host) _ _ (run_driven hs)
    (fun t ht => ?_) (fun t ht => ?_) fun t ht => ht.elim
  · obtain ⟨l, hl⟩ := ht.drives
    rw [State.respondOk_eq]
    exact ⟨hl.handle, hl.params.trans hprep.params, hl.host.trans hprep.host⟩
  · obtain ⟨l, hl⟩ := ht.drives
    rw [State.raiseCapabilityFailure_handle, State.raiseCapabilityFailure_params, State.raiseCapabilityFailure_host]
    exact ⟨hl.handle, hl.params.trans hprep.params, hl.host.trans hprep.host⟩

/-- Settles O23: only what `init` stores before its first call writes the handle. -/
theorem onlyInitWritesTheHandle : Obligations.OnlyInitWritesTheHandle := by
  unfold Obligations.OnlyInitWritesTheHandle
  intro i s hs
  refine ⟨_, exec_eq i s, ?_⟩
  cases hv : (planOf i s).valid with
  | false =>
    obtain ⟨-, -, hhandle, -, hparams, hhost, -, -⟩ := runPlan_rejected hv
    refine ⟨hparams, hhost, fun _ => hhandle, ?_⟩
    rintro h gpio spi pin rfl
    rw [hhandle, if_neg (by simpa [planOf, planInit] using hv)]
  | true =>
    obtain ⟨hhandle, hparams, hhost⟩ := runPlan_handle hs hv
    refine ⟨hparams, hhost, fun hi => hhandle.trans (planOf_prepare_handle hi s _), ?_⟩
    rintro h gpio spi pin rfl
    rw [hhandle, if_pos (show (h && gpio && spi) = true from hv)]
    rfl

end Sys2Proof.Machine
end

section
/-! PROOFS. The invariant of the chip (`Chip.Inv`: spec/20_memory.md R40, spec/10_state.md R17) at every step. -/

namespace Sys2Proof.Machine

/-- To know what a step comes to, see what it does when it is answered, while it stands open, at a tick, and at the
reset event; asking leaves the chip alone. -/
theorem State.ask_turn {P : Turn → Prop} {t : State} {answered : Bool → List Byte → State → Turn}
    {ticked : State → Turn} (ha : ∀ ok rx (u : State), u.chip = t.chip → P (answered ok rx u)) (hs : P (.hold t))
    (ht : ∀ u : State, u.chip = t.chip → P (ticked u)) (hr : ∀ u : State, u.chip = t.chip → P (.hold u.applyReset)) :
    P (t.ask.turn t answered ticked) := by
  rcases t.ask_cases with ⟨ok, rx, e, h, -⟩ | ⟨h, -⟩ | ⟨e, h, -⟩ | ⟨e, h, -⟩ <;> rw [h]
  · exact ha ok rx _ rfl
  · exact hs
  · exact ht _ rfl
  · exact hr _ rfl

/-- A step of a micro-program keeps the chip's invariant, whatever the environment does. -/
theorem perform_chipInv {s : State} (h : s.chip.Inv) (op : Op) (m : MStep) : (perform op m s).state.chip.Inv := by
  have kept : ∀ u : State, u.chip = s.chip → u.chip.Inv := fun u hu => by rwa [hu]
  have cut : ∀ u : State, u.chip = s.chip → u.applyReset.chip.Inv := kept
  obtain ⟨k, st, act⟩ := m
  cases act with
  | csHigh0 =>
    refine State.ask_turn (P := fun r => r.state.chip.Inv) (t := s.setSeq (.busy op k st)) (ticked := .hold)
      (answered := fun ok _ u => if ok then .next (u.pinWrite .high ok []) else .abort (u.pinWrite .high ok []))
      (fun ok rx u hu => ?_) h kept cut
    split <;> exact State.pinWrite_inv (kept u hu) .high ok []
  | csLow fr =>
    exact State.ask_turn (P := fun r => r.state.chip.Inv) (t := (s.setSeq (.busy op k st)).setFail false)
      (ticked := .hold) (answered := fun ok _ u => .next ((u.pinWrite .low ok fr).setFail (!ok)))
      (fun ok _ u hu => State.pinWrite_inv (kept u hu) .low ok fr) h kept cut
  | xfer x =>
    by_cases hf : s.work.fail = true
    · rw [perform_xfer_skipped s op k st x hf]
      exact h
    simp only [perform, if_neg hf]
    exact State.ask_turn (P := fun r => r.state.chip.Inv)
      (t := (s.setSeq (.busy op k st)).setWork { s.work with txbuf := x.tx }) (ticked := .hold)
      (answered := fun ok rx u => .next (u.transfer x ok rx))
      (fun ok rx u hu => State.transfer_inv (kept u hu) x ok rx) h kept cut
  | csHigh =>
    refine State.ask_turn (P := fun r => r.state.chip.Inv) (t := s.setSeq (.busy op k st)) (ticked := .hold)
      (answered := fun ok _ u => if s.work.fail || !ok then .abort ((u.pinWrite .high ok []).setFail true)
        else .next (u.pinWrite .high ok [])) (fun ok rx u hu => ?_) h kept cut
    split <;> exact State.pinWrite_inv (kept u hu) .high ok []
  | wait us =>
    refine State.ask_turn (P := fun r => r.state.chip.Inv) (t := s.atWait op us)
      (answered := fun _ _ u => .next (u.endWait us)) (ticked := fun u =>
        if u.work.dly ≤ 1 then .next (u.endWait us) else .hold (u.setDly (u.work.dly - 1)))
      (fun _ _ u hu => kept u hu) h (fun u hu => ?_) cut
    split <;> exact kept u hu

theorem run_chipInv {s : State} (h : s.chip.Inv) (op : Op) (ms : List MStep) :
    (run op ms s).Holds (·.chip.Inv) (·.chip.Inv) (·.chip.Inv) := by
  refine run_holds (inv := fun _ t => t.chip.Inv) (fun m _ t ht => ?_) h
  have hm := perform_chipInv ht op m
  cases hp : perform op m t <;> rw [hp] at hm <;> exact hm

theorem State.raiseCapabilityFailure_inv {s : State} (h : s.chip.Inv) (op : Op) :
    (s.raiseCapabilityFailure op).chip.Inv := by
  obtain ⟨b, lv, hc, -⟩ := s.raiseCapabilityFailure_chip op
  rw [hc]
  refine ⟨h.1, ?_⟩
  dsimp only
  split
  · rw [setWel_reserved, h.2]
  · exact h.2

theorem conclude_chipInv (op : Op) (result : State → Result) {r : Run}
    (h : r.Holds (·.chip.Inv) (·.chip.Inv) (·.chip.Inv)) : (conclude op result r).chip.Inv := by
  refine conclude_holds op result h (fun t ht => ?_) (fun t ht => State.raiseCapabilityFailure_inv ht op) fun t ht => ht
  rw [State.respondOk_eq]
  exact ht

/-- From VALIDATE on; what a plan stores before its first call is not the chip's. -/
theorem checkAndRun_chipInv {t : State} (h : t.chip.Inv) (i : Instr) (s : State) :
    (checkAndRun (opOf i) (planOf i s) t).chip.Inv := by
  rw [checkAndRun]
  split
  · exact conclude_chipInv _ _ (run_chipInv (by rwa [(planOf_prepare i s t).chip]) _ _)
  · exact h

/-- An operation in flight that goes on. -/
theorem Resumes.chipInv {s t : State} {k : Fin 3} {st : Step} (h : s.chip.Inv) (hr : Resumes s k st t) :
    t.chip.Inv := by
  cases hr with
  | stays => exact h
  | checks i => exact checkAndRun_chipInv h i s
  | responds i =>
    refine conclude_chipInv _ _ ?_
    split <;> exact h
  | goesOn i m ms => exact conclude_chipInv _ _ (run_chipInv h _ _)

/-- Settles O54: the step does one of six things; the chip is touched only by the steps of a micro-program, each of
which keeps its invariant, by time that passes, and by what a failure or a reset event leaves. -/
theorem stepKeepsTheChipInvariant : Obligations.StepKeepsTheChipInvariant := by
  unfold Obligations.StepKeepsTheChipInvariant
  intro s t h hst
  cases step_steps hst with
  | reset e => exact h
  | resumes op k st _ hq hr => exact hr.chipInv h
  | rests => exact h
  | pauses us ho hq => exact h
  | runs i ho hq => exact checkAndRun_chipInv (t := (s.setHost ho).accept i) h i (s.setHost ho)
  | reserved op ho hq => exact h

end Sys2Proof.Machine
end

section
/-! PROOFS. The address of a data operation: the mask (spec/20_memory.md R32) and the address bytes (R33). -/

namespace Sys2Proof.Machine

theorem maskAddr_toNat (addr : Field32) : (maskAddr addr).toNat = addr.toNat % 524288 := by
  rw [maskAddr, BitVec.toNat_setWidth, BitVec.toNat_and]
  exact (congrArg (· % 2 ^ 19) (Nat.and_two_pow_sub_one_eq_mod addr.toNat 19)).trans (Nat.mod_mod _ _)

/-- The range check in numbers (spec/20_memory.md R31). -/
theorem rangeOK_iff {m : Nat} {addr len : Field32} :
    rangeOK m addr len = true ↔ 1 ≤ len.toNat ∧ len.toNat ≤ m ∧ addr.toNat + len.toNat ≤ 524288 := by
  simp only [rangeOK, Bool.and_eq_true, decide_eq_true_eq]
  rw [Config.addrMax]
  omega

/-- After the range check the mask changes nothing. -/
theorem maskAddr_of_rangeOK {m : Nat} {addr len : Field32} (h : rangeOK m addr len = true) :
    (maskAddr addr).toNat = addr.toNat := by
  obtain ⟨hlen, -, hend⟩ := rangeOK_iff.mp h
  rw [maskAddr_toNat]
  omega

/-- Settles O8: the mask keeps the low 19 bits, and the range check leaves no others. -/
theorem maskKeepsACheckedAddress : Obligations.MaskKeepsACheckedAddress := by
  unfold Obligations.MaskKeepsACheckedAddress
  exact fun addr len m => ⟨maskAddr_toNat addr, maskAddr_of_rangeOK⟩

/-- Settles O7: the bytes are the 24-bit address shifted right by 16, 8 and 0 bits, and the address is below 2^19. -/
theorem addressBytesAreBigEndian : Obligations.AddressBytesAreBigEndian := by
  unfold Obligations.AddressBytesAreBigEndian
  intro a
  have ha : a.toNat < 2 ^ 19 := a.isLt
  refine ⟨_, _, _, rfl, ?_, ?_, ?_, ?_⟩ <;>
    simp only [BitVec.extractLsb'_toNat, BitVec.toNat_setWidth, Nat.shiftRight_eq_div_pow] <;> omega

end Sys2Proof.Machine
end

section
/-! PROOFS. What the chip takes from a frame, in any environment that answers every call: the effect of its command when
every call of it succeeded (`FrameTaken`), and otherwise one drawn between nothing and that effect (`FrameFailed`). -/

namespace Sys2Proof.Machine

/-! The frames of the eight commands (spec/40_framing.md R84 to R91). -/

/-- The transfers of a command's frame. -/
def Command.xfers : Command → List Xfer
  | .wren => cmdWREN
  | .wrdi => cmdWRDI
  | .rdsr => cmdRDSR
  | .wrsr v => cmdWRSR v
  | .read a n => cmdREAD a n
  | .write a d => cmdWRITE a d
  | .sleep => cmdSLEEP
  | .wake => cmdWAKE

/-- The payload, where there is one, fits in the array (spec/20_memory.md R40). -/
def Command.Fits : Command → Prop
  | .read a n => payloadFits a n = true
  | .write a d => payloadFits a d.length = true
  | .wren | .wrdi | .rdsr | .wrsr _ | .sleep | .wake => True

/-- The chip reads in a frame the command the framer put there (spec/20_memory.md R44, R46). -/
theorem chipDecode_xfers {c : Command} (h : c.Fits) : chipDecode (content c.xfers) = some c := by
  cases c with
  | wren | wrdi | rdsr | wrsr | sleep | wake => rfl
  | read a n =>
    simp only [Command.Fits] at h
    simp [chipDecode, content, Command.xfers, cmdREAD, addrBytes, addrOf_extract, h]
  | write a d =>
    simp only [Command.Fits] at h
    simp [chipDecode, content, Command.xfers, cmdWRITE, addrBytes, addrOf_extract, h]

theorem Command.xfers_ne_nil (c : Command) : c.xfers ≠ [] := by cases c <;> exact List.cons_ne_nil _ _

/-- A frame cut short after some of its transfers is read as the whole one. -/
theorem fullFrame_of_append {c : Command} {p rest : List Xfer} (hp : p ++ rest = c.xfers) (hne : p ≠ []) :
    fullFrame (content p) = content c.xfers := by
  obtain ⟨x, p, rfl⟩ := List.exists_cons_of_ne_nil hne
  cases c with
  | rdsr =>
    simp only [Command.xfers, cmdRDSR, List.cons_append, List.cons.injEq, List.append_eq_singleton_iff] at hp
    obtain ⟨rfl, ⟨rfl, -⟩ | ⟨rfl, -⟩⟩ := hp <;> rfl
  | _ =>
    simp only [Command.xfers, cmdWREN, cmdWRDI, cmdWRSR, cmdREAD, cmdWRITE, cmdSLEEP, cmdWAKE, List.cons_append,
      List.cons.injEq, List.append_eq_nil_iff] at hp
    obtain ⟨rfl, rfl, -⟩ := hp
    simp [fullFrame, content, Command.xfers, cmdWREN, cmdWRDI, cmdWRSR, cmdREAD, cmdWRITE, cmdSLEEP, cmdWAKE]

/-! A chip the frame has a meaning for. -/

/-- The chip is at rest and has a meaning for the command (spec/20_memory.md R49). -/
structure Chip.Accepts (c : Chip) (cmd : Command) : Prop where
  pending   : c.pending = none
  recovered : c.recovery = 0
  known     : c.lost = false
  allowed   : c.forbids cmd = false

theorem Chip.Ready.accepts {c : Chip} (h : c.Ready) (cmd : Command) : c.Accepts cmd := by
  obtain ⟨hmode, hrec, hpend, hwake, hlost⟩ := h
  refine ⟨hpend, hrec, hlost, ?_⟩
  cases cmd <;> simp [Chip.forbids, hmode, hrec, hwake]

/-- A Wake frame asks for no more than that the wake delay is over (log 17). -/
theorem Chip.accepts_wake {c : Chip} (hp : c.pending = none) (hr : c.recovery = 0) (hl : c.lost = false) :
    c.Accepts .wake :=
  ⟨hp, hr, hl, by simp [Chip.forbids, hr]⟩

/-- The chip with the level of chip-select and the frame under way replaced. -/
def Chip.onWire (c : Chip) (l : CsLevel) (p : Option Pending) : Chip := { c with csLevel := l, pending := p }

theorem Chip.forbids_onWire (c : Chip) (l : CsLevel) (p : Option Pending) (cmd : Command) :
    (c.onWire l p).forbids cmd = c.forbids cmd := by
  cases cmd <;> rfl

@[simp] theorem Chip.onWire_afterRead (c : Chip) (l : CsLevel) (p : Option Pending) :
    (c.onWire l p).afterRead = c.afterRead := rfl

/-- What a frame does to the chip does not depend on the wire. -/
theorem State.frameEffect_onWire (s : State) (c : Command) (l l' : CsLevel) (p p' : Option Pending) :
    ((s.setChip (s.chip.onWire l p)).frameEffect c).chip.onWire l' p' = (s.frameEffect c).chip.onWire l' p' := by
  cases c with
  | rdsr | wrsr =>
    cases h : s.chip.afterRead <;>
      simp only [State.frameEffect, State.setChip_chip, Chip.onWire_afterRead, h, Bool.false_eq_true, reduceIte] <;> rfl
  | _ => rfl

theorem State.cutEffect_onWire (s : State) (c : Command) (l l' : CsLevel) (p p' : Option Pending) :
    ((s.setChip (s.chip.onWire l p)).cutEffect c).chip.onWire l' p' = (s.cutEffect c).chip.onWire l' p' := by
  cases c with
  | rdsr | wrsr =>
    cases h : s.chip.afterRead <;>
      simp only [State.cutEffect, State.setChip_chip, Chip.onWire_afterRead, h, Bool.false_eq_true, reduceIte] <;> rfl
  | _ => rfl

/-- A frame that a known chip has a meaning for has its effect on it. -/
theorem State.takeFrame_of_allowed {effect : State → Command → State}
    (he : ∀ s c, (effect s c).chip.lost = s.chip.lost) {s : State} {bytes : List Byte} {c : Command}
    (hd : chipDecode bytes = some c) (hf : s.chip.forbids c = false) (hl : s.chip.lost = false) :
    s.takeFrame effect bytes = effect s c := by
  have hne : bytes ≠ [] := fun h => by
    rw [h] at hd
    cases hd
  rw [State.takeFrame, if_neg hne, hd]
  simp only [hf, Bool.false_eq_true, if_false]
  exact State.ifLost_of_known ((he s c).trans hl)

/-! The calls of a frame, on the chip. -/

/-- The select of a frame that the chip is at rest for begins the frame and breaks no rule. -/
theorem State.selected_onWire {s : State} (hp : s.chip.pending = none) (hr : s.chip.recovery = 0) (op : Op)
    (k : Fin 3) (fr : List Byte) :
    (s.selected op k fr).chip = s.chip.onWire (Level.low.after (headOk s.env))
      (some (if headOk s.env then ⟨[], false, false⟩ else ⟨fr, true, false⟩)) ∧
      (s.selected op k fr).audit.sleepRule = s.audit.sleepRule := by
  set v := (((s.setSeq (.busy op k .csLow)).setFail false).setEnv s.env.tail).pinWritten .low (headOk s.env) with hv
  have hj : v.joinFrame = v := State.joinFrame_of_none hp
  have hb : v.beginFrame fr = v := State.beginFrame_of_recovered (s := v) hr fr
  have hsel : s.selected op k fr = (v.driveLow (headOk s.env) fr).setFail (!headOk s.env) := rfl
  rw [hsel, State.driveLow, hj, hb]
  cases headOk s.env <;> exact ⟨rfl, rfl⟩

/-- While chip-select is LOW a transfer adds its bytes to the frame the chip has seen, and breaks no rule. -/
theorem State.transferred_onWire {s : State} {c : Chip} {b : List Byte}
    (h : s.chip = c.onWire .low (some ⟨b, false, false⟩)) (op : Op) (k : Fin 3) (st : Step) (x : Xfer) :
    (s.transferred op k st x).chip = c.onWire .low (some ⟨b ++ x.tx, !headOk s.env, false⟩) ∧
      (s.transferred op k st x).audit.sleepRule = s.audit.sleepRule := by
  rw [State.transferred, State.transfer_eq, State.rxStored_eq, State.chipTakes]
  simp [h, Chip.onWire]

theorem State.frameEffect_sleepRule (s : State) (c : Command) :
    (s.frameEffect c).audit.sleepRule = s.audit.sleepRule := by
  cases c with
  | rdsr | wrsr => simp only [State.frameEffect]; split <;> rfl
  | _ => rfl

/-- A deselect that ends a frame all of whose calls succeeded: the command has its effect. -/
theorem State.deselected_taken {s : State} {c : Chip} {cmd : Command} (hc : c.Accepts cmd) (hf : cmd.Fits)
    (h : s.chip = c.onWire .low (some ⟨content cmd.xfers, false, false⟩)) (hok : headOk s.env = true) (op : Op)
    (k : Fin 3) (st : Step) :
    ∃ u : State, u.chip = c ∧ u.params = s.params ∧
      (s.deselected op k st).chip = (u.frameEffect cmd).chip.onWire .high none ∧
      (s.deselected op k st).audit.sleepRule = s.audit.sleepRule := by
  set v := ((s.setSeq (.busy op k st)).setEnv s.env.tail).pinWritten .high true with hv
  have hvc : v.chip = c.onWire .low (some ⟨content cmd.xfers, false, false⟩) := h
  have hend : v.endFrame ⟨content cmd.xfers, false, false⟩ true = v.frameEffect cmd :=
    State.takeFrame_of_allowed State.frameEffect_lost (chipDecode_xfers hf)
      (by rw [hvc, Chip.forbids_onWire, hc.allowed]) (by rw [hvc]; exact hc.known)
  have hd : s.deselected op k st = v.driveHigh true := by rw [State.deselected, hok]; rfl
  have hdrive : v.driveHigh true =
      (v.frameEffect cmd).setChip ((v.frameEffect cmd).chip.onWire .high none) := by
    rw [← hend, State.driveHigh, hvc]
    rfl
  refine ⟨v.setChip c, rfl, rfl, ?_, ?_⟩
  · rw [hd, hdrive, State.setChip_chip, ← State.frameEffect_onWire (v.setChip c) cmd .low _
      (some ⟨content cmd.xfers, false, false⟩), State.setChip_chip, ← hvc]
    rfl
  · rw [hd, hdrive, State.setChip_audit, State.frameEffect_sleepRule]
    rfl

/-- A deselect attempt that ends, or leaves open, a frame with a failed call: something between nothing and the effect
of its command is drawn. -/
theorem State.deselected_cut {s : State} {c : Chip} {cmd : Command} (hc : c.Accepts cmd) (hf : cmd.Fits)
    {l : CsLevel} {p rest : List Xfer} {cut : Bool} (hp : p ++ rest = cmd.xfers) (hne : p ≠ [])
    (h : s.chip = c.onWire l (some ⟨content p, cut, false⟩)) (hcut : (cut || !headOk s.env) = true) (op : Op)
    (k : Fin 3) (st : Step) :
    ∃ (u : State) (l' : CsLevel) (q : Option Pending), u.chip = c ∧ u.params = s.params ∧
      (s.deselected op k st).chip = (u.cutEffect cmd).chip.onWire l' q := by
  set ok := headOk s.env with hok
  set v := ((s.setSeq (.busy op k st)).setEnv s.env.tail).pinWritten .high ok with hv
  have hvc : v.chip = c.onWire l (some ⟨content p, cut, false⟩) := h
  have hend : v.endFrame ⟨content p, cut, false⟩ ok = v.cutEffect cmd := by
    rw [State.endFrame, if_neg Bool.false_ne_true, if_pos hcut]
    exact State.takeFrame_of_allowed State.cutEffect_lost (by rw [fullFrame_of_append hp hne, chipDecode_xfers hf])
      (by rw [hvc, Chip.forbids_onWire, hc.allowed]) (by rw [hvc]; exact hc.known)
  have hd : s.deselected op k st = v.driveHigh ok := by rw [State.deselected, ← hok]; rfl
  refine ⟨v.setChip c, if ok then .high else .unknown,
    if ok then none else some ⟨content p, true, true⟩, rfl, rfl, ?_⟩
  rw [hd, ← State.cutEffect_onWire (v.setChip c) cmd l _ (some ⟨content p, cut, false⟩), State.setChip_chip, ← hvc,
    show (v.setChip c).setChip v.chip = v from rfl, ← hend, State.driveHigh, hvc]
  rfl

/-! A frame along its steps. -/

/-- A frame begun at `s` whose calls have all succeeded so far, the transfers `done` made: the chip has seen their
bytes, and in ENV_OK a transfer that receives has left the chip's answer in RXBUF. -/
structure State.FrameOpen (s : State) (done : List Xfer) (t : State) : Prop extends StepFrame s t where
  fail      : t.work.fail = false
  chip      : t.chip = s.chip.onWire .low (some ⟨content done, false, false⟩)
  sleepRule : t.audit.sleepRule = s.audit.sleepRule
  rxbuf     : s.EnvOk → ∀ xs x, done = xs ++ [x] → x.wantRx = true →
    ∃ n, t.work.rxbuf = chipAnswer (s.chip.onWire .low (some ⟨content xs, false, false⟩)) n x.tx

/-- A frame of `c` begun at `s` of which a call has failed: the chip may have seen some of its transfers. -/
structure State.FrameCut (s : State) (c : Command) (t : State) : Prop extends StepFrame s t where
  fail : t.work.fail = true
  chip : ∃ l p rest, p ++ rest = c.xfers ∧ p ≠ [] ∧ t.chip = s.chip.onWire l (some ⟨content p, true, false⟩)

/-- The chip has taken the whole frame of `c`, all of whose calls succeeded. -/
structure State.FrameTaken (s : State) (c : Command) (t : State) : Prop extends StepFrame s t where
  chip      : ∃ u : State, u.chip = s.chip ∧ u.params = s.params ∧ t.chip = (u.frameEffect c).chip.onWire .high none
  sleepRule : t.audit.sleepRule = s.audit.sleepRule
  rxbuf     : s.EnvOk → ∀ xs x, c.xfers = xs ++ [x] → x.wantRx = true →
    ∃ n, t.work.rxbuf = chipAnswer (s.chip.onWire .low (some ⟨content xs, false, false⟩)) n x.tx

/-- The operation has failed in the frame of `c`: the chip has taken what is drawn of it. -/
def State.FrameFailed (s : State) (c : Command) (t : State) : Prop :=
  ∃ (u : State) (l : CsLevel) (p : Option Pending), u.chip = s.chip ∧ u.params = s.params ∧
    t.chip = (u.cutEffect c).chip.onWire l p

/-- Where the transfers `rest` of the frame of `c` are still to make. -/
def State.InFrame (s : State) (c : Command) (rest : List Xfer) (t : State) : Prop :=
  (∃ done, done ++ rest = c.xfers ∧ s.FrameOpen done t) ∨ s.FrameCut c t

theorem StepFrame.of_next {op : Op} {m : MStep} {s t : State} (hm : m.WellPlaced) (h : perform op m s = .next t) :
    StepFrame s t := by
  have hp := perform_performs hm (op := op) s
  rw [h] at hp
  cases hp with
  | skipped => exact .refl s
  | passes ok _ hmade => exact hmade.toStepFrame

theorem content_append_singleton (xs : List Xfer) (x : Xfer) : content (xs ++ [x]) = content xs ++ x.tx := by
  simp [content]

/-- The select of a frame on a chip that has a meaning for it. -/
theorem selected_inFrame {s : State} {c : Command} (hc : s.chip.Accepts c) (hs : s.Answered) (op : Op) (k : Fin 3) :
    s.InFrame c c.xfers (s.selected op k (content c.xfers)) := by
  have hframe : StepFrame s (s.selected op k (content c.xfers)) :=
    .of_next (m := ⟨k, .csLow, .csLow _⟩) rfl (perform_csLow hs op k (content c.xfers))
  obtain ⟨hchip, hrule⟩ := State.selected_onWire hc.pending hc.recovered op k (content c.xfers)
  obtain ⟨-, -, -, -, -, -, -, hwork, -⟩ := s.selected_frame op k (content c.xfers)
  cases hok : headOk s.env <;> rw [hok] at hchip hwork
  · exact .inr ⟨hframe, congrArg Work.fail hwork, _, _, [], List.append_nil _, c.xfers_ne_nil, hchip⟩
  · exact .inl ⟨[], rfl, hframe, congrArg Work.fail hwork, hchip, hrule, fun _ xs x h => by simp at h⟩

/-- A transfer whose calls before it have succeeded. -/
theorem State.FrameOpen.transferred_inFrame {s t : State} {c : Command} {done rest : List Xfer} {x : Xfer}
    (h : s.FrameOpen done t) (hdone : done ++ x :: rest = c.xfers) (hs : s.Answered) (op : Op) (k : Fin 3) {st : Step}
    (hst : st = .xfer0 ∨ st = .xfer1) : s.InFrame c rest (t.transferred op k st x) := by
  have ht : t.Answered := h.answered hs
  have hframe : StepFrame s (t.transferred op k st x) :=
    h.toStepFrame.trans (.of_next (m := ⟨k, st, .xfer x⟩) hst (perform_xfer ht op k st x h.fail))
  obtain ⟨hchip, hrule⟩ := State.transferred_onWire h.chip op k st x
  rw [← content_append_singleton] at hchip
  obtain ⟨-, -, -, -, -, -, -, hwork, -⟩ := t.transferred_frame op k st x
  have hall : (done ++ [x]) ++ rest = c.xfers := by rw [← hdone, List.append_assoc]; rfl
  cases hok : headOk t.env <;> rw [hok] at hchip hwork
  · exact .inr ⟨hframe, congrArg Work.fail hwork, _, _, rest, hall, by simp, hchip⟩
  · refine .inl ⟨done ++ [x], hall, hframe, congrArg Work.fail hwork, hchip, hrule.trans h.sleepRule, ?_⟩
    intro he xs y hy hw
    obtain ⟨rfl, rfl⟩ : done = xs ∧ x = y := by simpa using List.append_inj' hy rfl
    have hte : t.EnvOk := fun a ha => he a (h.env a ha)
    refine ⟨t.draws, ?_⟩
    rw [hwork, ← h.chip]
    simp only [hw, if_true, received, hte.headRx, overlay]

/-- The deselect attempt of a frame all of whose calls before it have succeeded. -/
theorem State.FrameOpen.deselect {s t : State} {c : Command} (hc : s.chip.Accepts c) (hf : c.Fits)
    (h : s.FrameOpen c.xfers t) (hs : s.Answered) (op : Op) (k : Fin 3) :
    (perform op ⟨k, .csHigh, .csHigh⟩ t).Holds (s.FrameTaken c) (s.FrameFailed c) fun _ => False := by
  have hperform := perform_csHigh (h.answered hs) op k .csHigh
  cases hok : headOk t.env <;> rw [h.fail, hok] at hperform
  · obtain ⟨u, l, p, hu, hup, hchip⟩ :=
      State.deselected_cut hc hf (List.append_nil _) c.xfers_ne_nil h.chip (by simp [hok]) op k .csHigh
    rw [hperform]
    exact ⟨u, l, p, hu, hup.trans h.params, hchip⟩
  · obtain ⟨u, hu, hup, hchip, hrule⟩ := State.deselected_taken hc hf h.chip hok op k .csHigh
    obtain ⟨-, -, -, -, -, -, -, hwork, -, -⟩ := t.deselected_frame op k .csHigh
    have hframe : StepFrame t (t.deselected op k .csHigh) := .of_next (m := ⟨k, .csHigh, .csHigh⟩) rfl hperform
    rw [hperform]
    exact ⟨h.toStepFrame.trans hframe, ⟨u, hu, hup.trans h.params, hchip⟩, hrule.trans h.sleepRule,
      by rw [hwork]; exact h.rxbuf⟩

/-- The deselect attempt of a frame of which a call has failed. -/
theorem State.FrameCut.deselect {s t : State} {c : Command} (hc : s.chip.Accepts c) (hf : c.Fits)
    (h : s.FrameCut c t) (hs : s.Answered) (op : Op) (k : Fin 3) :
    (perform op ⟨k, .csHigh, .csHigh⟩ t).Holds (s.FrameTaken c) (s.FrameFailed c) fun _ => False := by
  obtain ⟨l, p, rest, hp, hne, hpc⟩ := h.chip
  obtain ⟨u, l', q, hu, hup, hchip⟩ := State.deselected_cut hc hf hp hne hpc rfl op k .csHigh
  rw [perform_csHigh (h.answered hs), h.fail]
  exact ⟨u, l', q, hu, hup.trans h.params, hchip⟩

/-- From a place in a frame to its end. -/
theorem run_xferSteps_chip {s : State} {c : Command} (hc : s.chip.Accepts c) (hf : c.Fits) (hs : s.Answered) (op : Op)
    (k : Fin 3) (rest : List Xfer) {st : Step} (hst : st = .xfer0 ∨ st = .xfer1) {t : State}
    (h : s.InFrame c rest t) :
    (run op (xferSteps k st rest ++ [⟨k, .csHigh, .csHigh⟩]) t).Holds (s.FrameTaken c) (s.FrameFailed c)
      fun _ => False := by
  induction rest generalizing st t with
  | nil =>
    have hend : (perform op ⟨k, .csHigh, .csHigh⟩ t).Holds (s.FrameTaken c) (s.FrameFailed c) fun _ => False := by
      rcases h with ⟨done, hdone, h⟩ | h
      · rw [List.append_nil] at hdone
        exact State.FrameOpen.deselect hc hf (hdone ▸ h) hs op k
      · exact h.deselect hc hf hs op k
    rw [xferSteps, List.nil_append, run]
    cases hp : perform op ⟨k, .csHigh, .csHigh⟩ t <;> rw [hp] at hend <;> exact hend
  | cons x rest ih =>
    rcases h with ⟨done, hdone, h⟩ | h
    · simp only [xferSteps, List.cons_append, run, perform_xfer (h.answered hs) op k st x h.fail]
      exact ih (.inr rfl) (h.transferred_inFrame hdone hs op k hst)
    · simp only [xferSteps, List.cons_append, run, perform_xfer_skipped t op k st x h.fail]
      exact ih (.inr rfl) (.inr h)

/-- A frame on a chip that has a meaning for it, in any environment that answers every call. -/
theorem run_frame_chip {s : State} {c : Command} (hc : s.chip.Accepts c) (hf : c.Fits) (hs : s.Answered) (op : Op)
    (k : Fin 3) : (run op (frameSteps k c.xfers) s).Holds (s.FrameTaken c) (s.FrameFailed c) fun _ => False := by
  simp only [frameSteps, run, perform_csLow hs op k (content c.xfers)]
  exact run_xferSteps_chip hc hf hs op k c.xfers (.inl rfl) (selected_inFrame hc hs op k)

/-- When every call succeeds the chip takes the whole frame. -/
theorem run_frame_taken {s : State} {c : Command} (hc : s.chip.Accepts c) (hf : c.Fits) (hs : s.CallsSucceed) (op : Op)
    (k : Fin 3) : ∃ t, run op (frameSteps k c.xfers) s = .finished t ∧ s.FrameTaken c t := by
  have hfin : ∃ t, run op (frameSteps k c.xfers) s = .finished t := by
    cases c with
    | rdsr =>
      obtain ⟨t, -, h, -⟩ := run_frame_two hs op k ⟨[Config.opcRdsr], false⟩ ⟨[Config.dummyByte], true⟩ rfl
      exact ⟨t, h⟩
    | _ =>
      obtain ⟨t, -, h, -⟩ := run_frame_one hs op k _
      exact ⟨t, h⟩
  obtain ⟨t, h⟩ := hfin
  have := run_frame_chip hc hf hs.answered op k
  rw [h] at this
  exact ⟨t, h, this⟩

end Sys2Proof.Machine
end

section
/-! PROOFS. What each command does to the chip that takes its frame (spec/20_memory.md R41 to R48). -/

namespace Sys2Proof.Machine

/-- A status read only ends the time after a READ frame (spec/20_memory.md R43). -/
theorem State.frameEffect_rdsr_chip (s : State) : (s.frameEffect .rdsr).chip = { s.chip with afterRead := false } := by
  simp only [State.frameEffect]
  split <;> rfl

section
variable {s t : State}

theorem State.FrameTaken.chip_wren (h : s.FrameTaken .wren t) (hp : s.chip.pending = none) :
    t.chip = { s.chip with sr := setWel s.chip.sr true, afterRead := false, csLevel := .high } := by
  obtain ⟨u, hu, -, hc⟩ := h.chip
  simp [hc, State.frameEffect, Chip.onWire, hu, hp]

theorem State.FrameTaken.chip_wrdi (h : s.FrameTaken .wrdi t) (hp : s.chip.pending = none) :
    t.chip = { s.chip with sr := setWel s.chip.sr false, afterRead := false, csLevel := .high } := by
  obtain ⟨u, hu, -, hc⟩ := h.chip
  simp [hc, State.frameEffect, Chip.onWire, hu, hp]

theorem State.FrameTaken.chip_rdsr (h : s.FrameTaken .rdsr t) (hp : s.chip.pending = none) :
    t.chip = { s.chip with afterRead := false, csLevel := .high } := by
  obtain ⟨u, hu, -, hc⟩ := h.chip
  rw [hc, State.frameEffect_rdsr_chip, hu]
  simp [Chip.onWire, hp]

/-- A status write that does not follow a READ frame (spec/20_memory.md R45). -/
theorem State.FrameTaken.chip_wrsr {v : Byte} (h : s.FrameTaken (.wrsr v) t) (hp : s.chip.pending = none)
    (hr : s.chip.afterRead = false) :
    t.chip = { s.chip with
      sr := setWel (srAfterWrsr s.params s.chip.sr v) false, afterRead := false, csLevel := .high } := by
  obtain ⟨u, hu, hup, hc⟩ := h.chip
  simp [hc, State.frameEffect, Chip.onWire, hu, hup, hp, hr]

theorem State.FrameTaken.chip_read {a : Addr} {n : Nat} (h : s.FrameTaken (.read a n) t) (hp : s.chip.pending = none) :
    t.chip = { s.chip with afterRead := true, csLevel := .high } := by
  obtain ⟨u, hu, -, hc⟩ := h.chip
  simp [hc, State.frameEffect, Chip.onWire, hu, hp]

theorem State.FrameTaken.chip_write {a : Addr} {d : List Byte} (h : s.FrameTaken (.write a d) t)
    (hp : s.chip.pending = none) :
    t.chip = { s.chip with
      mem := if srWelBit s.chip.sr then
          Memory.writeN (fun x => !isProtected s.params s.chip.sr x) s.chip.mem a.toNat d
        else s.chip.mem
      sr := setWel s.chip.sr false, afterRead := false, csLevel := .high } := by
  obtain ⟨u, hu, hup, hc⟩ := h.chip
  simp [hc, State.frameEffect, Chip.onWire, hu, hup, hp]

theorem State.FrameTaken.chip_sleep (h : s.FrameTaken .sleep t) (hp : s.chip.pending = none) :
    t.chip = { s.chip with mode := .asleep, afterRead := false, csLevel := .high } := by
  obtain ⟨u, hu, -, hc⟩ := h.chip
  simp [hc, State.frameEffect, Chip.onWire, hu, hp]

/-- A chip that was asleep or recovering recovers, its latch free (spec/20_memory.md R48, R49). -/
theorem State.FrameTaken.chip_wake (h : s.FrameTaken .wake t) (hp : s.chip.pending = none) :
    ∃ b, t.chip = { s.chip with
      mode := .awake
      recovery := if s.chip.unready || s.chip.lost then 400 else 0
      sr := if s.chip.unready then setWel s.chip.sr b else s.chip.sr
      afterRead := false, csLevel := .high } := by
  obtain ⟨u, hu, -, hc⟩ := h.chip
  exact ⟨Config.freeBit u.draws, by simp [hc, State.frameEffect, Chip.onWire, hu, hp]⟩

/-- A ready chip is ready again after every frame but Sleep. -/
theorem State.FrameTaken.ready {c : Command} (h : s.FrameTaken c t) (hs : s.chip.Ready) (hc : c ≠ .sleep) :
    t.chip.Ready := by
  obtain ⟨u, hu, -, ht⟩ := h.chip
  obtain ⟨hmode, hrec, hpend, hwake, hlost⟩ := hs
  rw [ht]
  cases c with
  | sleep => exact absurd rfl hc
  | rdsr => simp_all [State.frameEffect_rdsr_chip, Chip.onWire, Chip.Ready]
  | wrsr v => cases hread : u.chip.afterRead <;> simp_all [State.frameEffect, Chip.onWire, Chip.Ready]
  | _ => simp_all [State.frameEffect, Chip.onWire, Chip.unready, Chip.Ready]

end

/-! Which bytes change (spec/20_memory.md R30). -/

theorem State.frameEffect_mem {c : Command} (hc : ∀ a d, c ≠ .write a d) (s : State) :
    (s.frameEffect c).chip.mem = s.chip.mem := by
  cases c with
  | write a d => exact absurd rfl (hc a d)
  | rdsr | wrsr => simp only [State.frameEffect]; split <;> rfl
  | _ => rfl

theorem State.cutEffect_mem {c : Command} (hc : ∀ a d, c ≠ .write a d) (s : State) :
    (s.cutEffect c).chip.mem = s.chip.mem := by
  cases c with
  | write a d => exact absurd rfl (hc a d)
  | rdsr | wrsr => simp only [State.cutEffect]; split <;> rfl
  | _ => rfl

theorem State.FrameTaken.mem {s t : State} {c : Command} (h : s.FrameTaken c t) (hc : ∀ a d, c ≠ .write a d) :
    t.chip.mem = s.chip.mem := by
  obtain ⟨u, hu, -, ht⟩ := h.chip
  rw [ht, ← hu]
  exact State.frameEffect_mem hc u

theorem State.FrameFailed.mem {s t : State} {c : Command} (h : s.FrameFailed c t) (hc : ∀ a d, c ≠ .write a d) :
    t.chip.mem = s.chip.mem := by
  obtain ⟨u, l, p, hu, -, ht⟩ := h
  rw [ht, ← hu]
  exact State.cutEffect_mem hc u

/-! What the chip answers (spec/20_memory.md R43, R44). -/

/-- In a READ frame: nothing known during the header, then the array. -/
theorem chipAnswer_read {c : Chip} (h : c.Ready) {a : Addr} {k : Nat} (hf : payloadFits a k = true) (n : Nat) :
    chipAnswer (c.onWire .low (some ⟨[], false, false⟩)) n (content (cmdREAD a k)) =
      drawBytes n 4 ++ Memory.readN c.mem a.toNat k := by
  have hd : chipDecode (content (cmdREAD a k)) = some (.read a k) := chipDecode_xfers (c := .read a k) hf
  obtain ⟨hmode, hrec, -, hwake, hlost⟩ := h
  simp [chipAnswer, Chip.onWire, Chip.unready, hmode, hrec, hwake, hlost, hd]

/-- During the dummy byte of a status read that does not follow a READ frame: the status register. -/
theorem chipAnswer_rdsr {c : Chip} (h : c.Ready) (hr : c.afterRead = false) (n : Nat) (b : Byte) :
    chipAnswer (c.onWire .low (some ⟨[Config.opcRdsr], false, false⟩)) n [b] = [c.sr] := by
  obtain ⟨hmode, hrec, -, hwake, hlost⟩ := h
  simp [chipAnswer, Chip.onWire, Chip.unready, hmode, hrec, hwake, hlost, hr]

theorem State.FrameTaken.receivedData_eq {s t : State} {a : Addr} {n : Nat} (h : s.FrameTaken (.read a n) t)
    (he : s.EnvOk) (hs : s.chip.Ready) (hf : payloadFits a n = true) :
    receivedData t = Memory.readN s.chip.mem a.toNat n := by
  obtain ⟨k, hk⟩ := h.rxbuf he [] _ rfl rfl
  have hans := chipAnswer_read hs hf k
  rw [content, cmdREAD, List.flatMap_singleton] at hans
  rw [receivedData, hk, show content [] = [] from rfl, hans]
  simp

theorem State.FrameTaken.receivedSr_eq {s t : State} (h : s.FrameTaken .rdsr t) (he : s.EnvOk) (hs : s.chip.Ready)
    (hr : s.chip.afterRead = false) : receivedSr t = s.chip.sr := by
  obtain ⟨k, hk⟩ := h.rxbuf he [_] _ rfl rfl
  rw [receivedSr, hk]
  exact congrArg (List.headD · _) (chipAnswer_rdsr hs hr k _)

end Sys2Proof.Machine
end

section
/-! PROOFS. The operations on the reference chip under ENV_OK (spec/20_memory.md R41 to R49, R55): each is the frames of
its micro-program, taken one after the other. -/

namespace Sys2Proof.Machine

/-! From the micro-program to the response OK. -/

/-- The state after an instruction whose micro-program has finished at `t`. -/
def State.completed (t : State) (i : Instr) (r : Result) : State := (t.respondOk r).noteOutcome (opOf i) false

@[simp] theorem State.completed_chip (t : State) (i : Instr) (r : Result) : (t.completed i r).chip =
    { t.chip with mustWake := mustWakeAfter (opOf i) false t.chip.mustWake } := by cases r <;> rfl
@[simp] theorem State.completed_sleepRule (t : State) (i : Instr) (r : Result) :
    (t.completed i r).audit.sleepRule = t.audit.sleepRule := by cases r <;> rfl

/-- The state an instruction's micro-program begins at. -/
def State.begun (s : State) (i : Instr) : State := (planOf i s).prepare (s.accept i)

theorem State.begun_prepared (s : State) (i : Instr) : Prepared (s.accept i) (s.begun i) := planOf_prepare i s _

@[simp] theorem State.begun_chip (s : State) (i : Instr) : (s.begun i).chip = s.chip := (s.begun_prepared i).chip
@[simp] theorem State.begun_env (s : State) (i : Instr) : (s.begun i).env = s.env := (s.begun_prepared i).env

theorem exec_finished {i : Instr} {s t : State} (hv : (planOf i s).valid = true)
    (h : run (opOf i) (planOf i s).steps (s.begun i) = .finished t) :
    exec i s = .next (t.completed i ((planOf i s).result t)) := by
  rw [State.begun] at h
  rw [exec_eq, runPlan_valid _ _ _ hv, h]
  rfl

/-- An instruction of one frame. -/
theorem exec_frame {i : Instr} {s : State} {c : Command} (hs : s.CallsSucceed) (hv : (planOf i s).valid = true)
    (hsteps : (planOf i s).steps = frameSteps 0 c.xfers) (hc : s.chip.Accepts c) (hf : c.Fits) :
    ∃ t, (s.begun i).FrameTaken c t ∧ exec i s = .next (t.completed i ((planOf i s).result t)) := by
  have hc' : (s.begun i).chip.Accepts c := by rwa [s.begun_chip]
  have hs' : (s.begun i).CallsSucceed := fun a ha => hs a (s.begun_env i ▸ ha)
  obtain ⟨t, hrun, ht⟩ := run_frame_taken hc' hf hs' (opOf i) 0
  exact ⟨t, ht, exec_finished hv (hsteps ▸ hrun)⟩

/-- An instruction of one frame and a wait after it (spec/43_power_ops.md R120, R121). -/
theorem exec_frame_wait {i : Instr} {s : State} {c : Command} {us : Nat} (hs : s.CallsSucceed)
    (hv : (planOf i s).valid = true) (hsteps : (planOf i s).steps = frameSteps 0 c.xfers ++ [waitStep us])
    (hc : s.chip.Accepts c) (hf : c.Fits) :
    ∃ t, (s.begun i).FrameTaken c t ∧
      exec i s = .next ((t.waited (opOf i) us).completed i ((planOf i s).result (t.waited (opOf i) us))) := by
  have hc' : (s.begun i).chip.Accepts c := by rwa [s.begun_chip]
  have hs' : (s.begun i).CallsSucceed := fun a ha => hs a (s.begun_env i ▸ ha)
  obtain ⟨t, hrun, ht⟩ := run_frame_taken hc' hf hs' (opOf i) 0
  refine ⟨t, ht, exec_finished hv ?_⟩
  rw [hsteps, run_append, hrun]
  simp only [run, perform_wait (ht.answered hs'.answered)]

/-- An instruction whose frame stands in its bracket (spec/40_framing.md R96). -/
theorem exec_bracketed {i : Instr} {s : State} {c : Command} (hs : s.CallsSucceed) (hv : (planOf i s).valid = true)
    (hsteps : (planOf i s).steps = bracketed c.xfers) (hc : s.chip.Ready) (hsl : c ≠ .sleep) (hf : c.Fits) :
    ∃ t u v, (s.begun i).FrameTaken .wren t ∧ t.FrameTaken c u ∧ u.FrameTaken .wrdi v ∧
      exec i s = .next (v.completed i ((planOf i s).result v)) := by
  have hc' : (s.begun i).chip.Ready := by rwa [s.begun_chip]
  have hs' : (s.begun i).CallsSucceed := fun a ha => hs a (s.begun_env i ▸ ha)
  obtain ⟨t, hrun, ht⟩ := run_frame_taken (hc'.accepts .wren) trivial hs' (opOf i) 0
  have htr := ht.ready hc' (by simp)
  have hts : t.CallsSucceed := hs'.of_subset ht.env
  obtain ⟨u, hrun', hu⟩ := run_frame_taken (htr.accepts c) hf hts (opOf i) 1
  have hur := hu.ready htr hsl
  obtain ⟨v, hrun'', hv'⟩ := run_frame_taken (hur.accepts .wrdi) trivial (hts.of_subset hu.env) (opOf i) 2
  refine ⟨t, u, v, ht, hu, hv', exec_finished hv ?_⟩
  rw [hsteps, bracketed, run_append, run_append, show frameSteps 0 cmdWREN = frameSteps 0 Command.wren.xfers from rfl,
    hrun]
  simp only [hrun']
  exact hrun''

/-- `init`'s pin write HIGH on a chip at rest. -/
theorem State.deselected_chip_atRest {s : State} (hp : s.chip.pending = none) (hr : s.chip.recovery = 0) (op : Op)
    (k : Fin 3) (st : Step) :
    (s.deselected op k st).chip = { s.chip with csLevel := Level.high.after (headOk s.env) } := by
  set v := ((s.setSeq (.busy op k st)).setEnv s.env.tail).pinWritten .high (headOk s.env) with hv
  have hvc : v.chip = s.chip := rfl
  have hd : v.doubtHigh (headOk s.env) = v := State.doubtHigh_of_recovered (s := v) hr _
  rw [show s.deselected op k st = v.driveHigh (headOk s.env) from rfl, State.driveHigh, hvc, hp]
  simp only [hd, hvc]
  cases headOk s.env <;> simp [hp, Level.after]

/-- `init` (spec/41_init_wel_ops.md R100): chip-select goes HIGH, then one Write-Disable frame. -/
theorem exec_init {s : State} (hs : s.CallsSucceed) (hr : s.chip.Ready) (pin : Pin) :
    ∃ t u : State, t.chip = { s.chip with csLevel := .high } ∧ t.FrameTaken .wrdi u ∧
      exec (.init true true true pin) s = .next (u.completed (.init true true true pin) .done) := by
  have hs' : (s.begun (.init true true true pin)).CallsSucceed := hs
  have hr' : (s.begun (.init true true true pin)).chip.Ready := hr
  have hp := perform_csHigh0 hs'.answered .init 0 .csHigh0
  rw [hs'.headOk, if_pos rfl] at hp
  set t := (s.begun (.init true true true pin)).deselected .init 0 .csHigh0 with ht
  have htc : t.chip = { s.chip with csLevel := .high } := by
    rw [ht, State.deselected_chip_atRest (hr'.accepts .wrdi).pending (hr'.accepts .wrdi).recovered, hs'.headOk]
    rfl
  have hts : t.CallsSucceed := hs'.of_subset (StepFrame.of_next (m := ⟨0, .csHigh0, .csHigh0⟩) rfl hp).env
  have htr : t.chip.Ready := by rw [htc]; exact hr
  obtain ⟨u, hrun, hu⟩ := run_frame_taken (htr.accepts .wrdi) trivial hts .init 0
  refine ⟨t, u, htc, hu, exec_finished (i := .init true true true pin) rfl ?_⟩
  simp only [planOf, planInit, run, opOf, hp]
  exact hrun

/-- Settles O38: each is one frame, `init`'s after a pin write HIGH that a chip at rest does not notice. -/
theorem enableAndDisableFramesSetTheLatch : Obligations.EnableAndDisableFramesSetTheLatch := by
  unfold Obligations.EnableAndDisableFramesSetTheLatch
  intro s he hr
  have hs := he.callsSucceed
  have hp := (hr.accepts .wren).pending
  refine ⟨fun hb => ?_, fun hb => ?_, fun pin => ?_⟩
  · obtain ⟨t, ht, hex⟩ := exec_frame (i := .writeEnable true) (c := .wren) hs hb rfl (hr.accepts _) trivial
    exact ⟨_, hex, ht.chip_wren hp⟩
  · obtain ⟨t, ht, hex⟩ := exec_frame (i := .writeDisable true) (c := .wrdi) hs hb rfl (hr.accepts _) trivial
    exact ⟨_, hex, ht.chip_wrdi hp⟩
  · obtain ⟨t, u, ht, hu, hex⟩ := exec_init hs hr pin
    have hchip := hu.chip_wrdi (by rw [ht]; exact hp)
    rw [ht] at hchip
    exact ⟨_, hex, hchip⟩

/-! The data operations (spec/42_data_ops.md R110, R111). -/

/-- A range that passes the check is a payload that fits (spec/20_memory.md R31, R40). -/
theorem payloadFits_of_rangeOK {m n : Nat} {addr len : Field32} (h : rangeOK m addr len = true) (hn : n = len.toNat) :
    payloadFits (maskAddr addr) n = true := by
  obtain ⟨hlen, -, hend⟩ := rangeOK_iff.mp h
  simp only [payloadFits, maskAddr_of_rangeOK h, hn, Bool.and_eq_true, decide_eq_true_eq]
  exact ⟨hlen, hend⟩

/-- `write` on a ready chip under ENV_OK: the whole chip after it, and what a following operation needs. -/
theorem exec_write_chip {s : State} {addr len : Field32} {data : List Byte} (he : s.EnvOk) (hr : s.chip.Ready)
    (hb : s.handle.bound = true) (hrange : rangeOK s.params.maxXferLen addr len = true)
    (hlen : data.length = len.toNat) :
    ∃ t, exec (.write true true addr len data) s = .next t ∧ (∃ r, t.response = some r ∧ r.status = .ok) ∧
      t.chip = { s.chip with
        mem := Memory.writeN (fun x => !isProtected s.params (setWel s.chip.sr true) x) s.chip.mem addr.toNat data
        sr := setWel s.chip.sr false, afterRead := false, csLevel := .high } ∧
      t.handle = s.handle ∧ t.params = s.params ∧ ∀ a ∈ t.env, a ∈ s.env := by
  have hv : (planOf (.write true true addr len data) s).valid = true := by
    simp [planOf, planWrite, checkHandle, checkData, hb, hrange]
  have hfits : (Command.write (maskAddr addr) data).Fits := payloadFits_of_rangeOK hrange hlen
  obtain ⟨t, u, v, ht, hu, hv', hex⟩ := exec_bracketed (c := .write (maskAddr addr) data) he.callsSucceed hv rfl hr
    (by simp) hfits
  have hp := (hr.accepts .wren).pending
  have htc : t.chip = _ := ht.chip_wren hp
  have huc := hu.chip_write (by rw [htc]; exact hp)
  have hvc := hv'.chip_wrdi (by rw [huc, htc]; exact hp)
  have hparams : t.params = s.params := ht.params
  rw [huc, htc, hparams] at hvc
  have hframe := (ht.toStepFrame.trans hu.toStepFrame).trans hv'.toStepFrame
  refine ⟨_, hex, ⟨_, rfl, rfl⟩, ?_, hframe.handle, hframe.params, hframe.env⟩
  show v.chip = _
  rw [hvc]
  simp [maskAddr_of_rangeOK hrange]

/-- Settles O39: the WRITE frame, its latch set by the frame before it, stores the payload where no address is
protected. -/
theorem writeStoresTheUnprotectedBytes : Obligations.WriteStoresTheUnprotectedBytes := by
  unfold Obligations.WriteStoresTheUnprotectedBytes
  intro s addr len data he hr hinv hb hrange hlen
  obtain ⟨t, hex, hresp, hchip, -, -, -⟩ := exec_write_chip he hr hb hrange hlen
  refine ⟨t, hex, hresp, fun x => ?_, by rw [hchip], by rw [hchip], by rw [hchip]⟩
  obtain ⟨-, -, hend⟩ := rangeOK_iff.mp hrange
  rw [hchip, Memory.read_writeN _ hinv.1 _ _ (by rw [hlen]; exact hend), hlen]
  simp only [Bool.not_eq_true']

/-- Settles O42: in the READ frame the chip answers with the array's bytes from the fifth on, and a READ frame changes
no more than AFTER_READ. -/
theorem readReturnsTheArray : Obligations.ReadReturnsTheArray := by
  unfold Obligations.ReadReturnsTheArray
  intro s addr len he hr hb hrange
  have hv : (planOf (.read true true addr len) s).valid = true := by
    simp [planOf, planRead, checkHandle, checkData, hb, hrange]
  have hfits : (Command.read (maskAddr addr) len.toNat).Fits := payloadFits_of_rangeOK hrange rfl
  obtain ⟨t, ht, hex⟩ := exec_frame (c := .read (maskAddr addr) len.toNat) he.callsSucceed hv rfl (hr.accepts _) hfits
  have hdata : receivedData t = Memory.readN s.chip.mem addr.toNat len.toNat := by
    rw [ht.receivedData_eq he hr hfits, maskAddr_of_rangeOK hrange]
    rfl
  refine ⟨_, _, hex, rfl, rfl, ?_, fun i hi => ?_, ht.chip_read (hr.accepts .wren).pending⟩
  · exact (congrArg List.length hdata).trans (Memory.readN_length _ _ _)
  · refine (congrArg (·[i]?) hdata).trans ?_
    rw [Memory.readN_getElem?, if_pos hi]

/-- Settles O45: `write` leaves the chip ready with the data in the array, and `read` answers with the array. -/
theorem writeThenReadReturnsTheData : Obligations.WriteThenReadReturnsTheData := by
  unfold Obligations.WriteThenReadReturnsTheData
  intro s addr len data he hr hinv hb hrange hlen hfree
  obtain ⟨t, hex, -, hchip, hhandle, hparams, henv⟩ := exec_write_chip he hr hb hrange hlen
  have hrt : t.chip.Ready := by rw [hchip]; exact hr
  obtain ⟨u, r, hex', hresp, hok, hrlen, hdata, -⟩ := readReturnsTheArray t addr len (fun a ha => he a (henv a ha)) hrt
    (by rw [hhandle, hb]) (by rw [hparams, hrange])
  refine ⟨t, u, r, hex, hex', hresp, hok, List.ext_getElem? fun i => ?_⟩
  obtain ⟨-, -, hend⟩ := rangeOK_iff.mp hrange
  by_cases hi : i < len.toNat
  · rw [hdata i hi, hchip, Memory.read_writeN _ hinv.1 _ _ (by rw [hlen]; exact hend),
      if_pos ⟨by omega, by omega, by simp [hfree _ (Nat.le_add_right _ i) (Nat.add_lt_add_left hi _)]⟩]
    simp [hlen, hi]
  · rw [List.getElem?_eq_none (by omega), List.getElem?_eq_none (by omega)]

/-! The status register (spec/44_status_ops.md R130 to R135, spec/20_memory.md R43, R45). -/

theorem setWel_getLsbD (sr : Byte) (b : Bool) {k : Nat} (hk : k < 8) :
    (setWel sr b).getLsbD k = if k = 1 then b else sr.getLsbD k := by
  cases b <;> (simp only [setWel]; interval_cases k <;> simp)

theorem setWritable_getLsbD (sr v : Byte) {k : Nat} (hk : k < 8) :
    (setWritable sr v).getLsbD k = if k = 7 ∨ k = 3 ∨ k = 2 then v.getLsbD k else sr.getLsbD k := by
  simp only [setWritable]
  interval_cases k <;> simp

/-- A latch that is clear is cleared to the same register. -/
theorem setWel_of_clear {sr : Byte} (h : sr.getLsbD 1 = false) : setWel sr false = sr := by
  refine BitVec.eq_of_getLsbD_eq fun k hk => ?_
  rw [setWel_getLsbD sr false hk]
  split
  · next h1 => rw [h1, h]
  · rfl

/-- SR_LOCKED does not depend on the latch. -/
theorem srLocked_setWel (p : Params) (sr : Byte) (b : Bool) :
    srLocked p (setWel sr b) = if sr.getLsbD 7 then p.lockWpen1 else p.lockWpen0 := by
  rw [srLocked, srWpenBit_eq, setWel_getLsbD sr b (by omega)]
  rfl

/-- Bit by bit, the register that a status write in its bracket leaves (spec/20_memory.md R45). -/
theorem srAfterWrsr_getLsbD (p : Params) (sr v : Byte) {k : Nat} (hk : k < 8) :
    (setWel (srAfterWrsr p (setWel sr true) v) false).getLsbD k =
      if k = 1 then false
      else if (k = 7 ∨ k = 3 ∨ k = 2) ∧ (if sr.getLsbD 7 then p.lockWpen1 else p.lockWpen0) = false then v.getLsbD k
      else sr.getLsbD k := by
  rw [setWel_getLsbD _ _ hk, srAfterWrsr, srWelBit_setWel, srLocked_setWel]
  by_cases h1 : k = 1
  · rw [if_pos h1, if_pos h1]
  · cases (if sr.getLsbD 7 then p.lockWpen1 else p.lockWpen0) <;>
      simp [h1, setWritable_getLsbD _ _ hk, setWel_getLsbD _ _ hk]

/-- Settles O40: between the frames that set and clear the latch the WRSR frame takes the three bits, unless locked. -/
theorem writeStatusRegisterTakesThreeBits : Obligations.WriteStatusRegisterTakesThreeBits := by
  unfold Obligations.WriteStatusRegisterTakesThreeBits
  intro s v he hr hb
  obtain ⟨t, u, w, ht, hu, hw, hex⟩ := exec_bracketed (i := .writeStatusRegister true v) (c := .wrsr v) he.callsSucceed
    hb rfl hr (by simp) trivial
  have hp := (hr.accepts .wren).pending
  have htc : t.chip = _ := ht.chip_wren hp
  have huc := hu.chip_wrsr (by rw [htc]; exact hp) (by rw [htc])
  have hwc := hw.chip_wrdi (by rw [huc, htc]; exact hp)
  have hparams : t.params = s.params := ht.params
  rw [huc, htc, hparams] at hwc
  have hchip : (w.completed (.writeStatusRegister true v) .done).chip = { s.chip with
      sr := setWel (srAfterWrsr s.params (setWel s.chip.sr true) v) false, afterRead := false, csLevel := .high } := by
    show w.chip = _
    rw [hwc]
    simp
  refine ⟨w.completed _ .done, hex, by rw [hchip], fun k hk => ?_⟩
  rw [hchip]
  exact srAfterWrsr_getLsbD s.params s.chip.sr v hk

/-- Settles O41: with the latch clear each of the two frames changes no more than AFTER_READ and the latch, which are
as they were. -/
theorem writeTypeFramesNeedTheLatch : Obligations.WriteTypeFramesNeedTheLatch := by
  unfold Obligations.WriteTypeFramesNeedTheLatch
  intro s a d v he hr hread hb hwel hpay
  have hp := (hr.accepts .wren).pending
  have hlatch : srWelBit s.chip.sr = false := by rw [srWelBit_eq, hwel]
  have hclear := setWel_of_clear hwel
  have hfits : (Command.write a d).Fits := (Bool.and_eq_true_iff.mp hpay).1
  constructor
  · obtain ⟨t, ht, hex⟩ := exec_frame (i := .cmdWrite a d) (c := .write a d) he.callsSucceed
      (by simp [planOf, planCmdWrite, planFrame, hb, hpay]) rfl (hr.accepts _) hfits
    have hchip := ht.chip_write hp
    simp only [State.begun_chip, hlatch, Bool.false_eq_true, if_false, hclear] at hchip
    rw [← hread] at hchip
    exact ⟨_, _, hex, rfl, rfl, hchip⟩
  · obtain ⟨t, ht, hex⟩ := exec_frame (i := .cmdWrsr v) (c := .wrsr v) he.callsSucceed
      (by simp [planOf, planCmdWrsr, planFrame, hb]) rfl (hr.accepts _) trivial
    have hchip := ht.chip_wrsr hp hread
    simp only [State.begun_chip, srAfterWrsr, hlatch, Bool.false_and, Bool.false_eq_true, if_false, hclear] at hchip
    rw [← hread] at hchip
    exact ⟨_, _, hex, rfl, rfl, hchip⟩

/-- An instruction of one status-read frame that does not follow a READ frame. -/
theorem exec_statusRead {i : Instr} {s : State} (he : s.EnvOk) (hr : s.chip.Ready) (hread : s.chip.afterRead = false)
    (hv : (planOf i s).valid = true) (hsteps : (planOf i s).steps = frameSteps 0 cmdRDSR) :
    ∃ t, exec i s = .next (t.completed i ((planOf i s).result t)) ∧ receivedSr t = s.chip.sr ∧
      t.chip = { s.chip with csLevel := .high } := by
  obtain ⟨t, ht, hex⟩ := exec_frame (c := .rdsr) he.callsSucceed hv hsteps (hr.accepts _) trivial
  have hchip := ht.chip_rdsr (by rw [s.begun_chip]; exact (hr.accepts .rdsr).pending)
  have hsr := ht.receivedSr_eq (fun a ha => he a (s.begun_env i ▸ ha)) (by rwa [s.begun_chip])
    (by rwa [s.begun_chip])
  rw [s.begun_chip] at hchip hsr
  exact ⟨t, hex, hsr, by rw [hchip, ← hread]⟩

/-- The mask of a block number is one of the bits BP0, BP1 (spec/30_encoding.md R64). -/
theorem blockMask_eq {n : Byte} (hn : n.toNat ≤ 1) : blockMask n = 1#8 <<< (2 + n.toNat) := by
  obtain h | h : n.toNat = 0 ∨ n.toNat = 1 := by omega
  all_goals rw [blockMask, h]; rfl

/-- Settles O43: the byte received during the dummy byte is the status register, and the frame changes nothing that was
not so. -/
theorem statusReadReturnsTheRegister : Obligations.StatusReadReturnsTheRegister := by
  unfold Obligations.StatusReadReturnsTheRegister
  intro s he hr hread hb
  have hcheck : checkHandle true s = true := hb
  refine ⟨?_, ?_, ?_, fun n hn => ?_⟩
  · obtain ⟨t, hex, hsr, hchip⟩ := exec_statusRead (i := .readStatusRegister true true) he hr hread
      (by simp [planOf, planReadStatusRegister, hcheck]) rfl
    exact ⟨_, _, hex, rfl, rfl, hsr, hchip⟩
  · obtain ⟨t, hex, hsr, hchip⟩ := exec_statusRead (i := .isWriteEnabled true) he hr hread hb rfl
    exact ⟨_, _, hex, rfl, rfl, by rw [← hsr]; exact srWelBit_eq _, hchip⟩
  · obtain ⟨t, hex, hsr, hchip⟩ := exec_statusRead (i := .isWriteProtected true) he hr hread hb rfl
    exact ⟨_, _, hex, rfl, rfl, by rw [← hsr]; exact srWpenBit_eq _, hchip⟩
  · obtain ⟨t, hex, hsr, hchip⟩ := exec_statusRead (i := .isBlockProtected true n) he hr hread
      (by simp [planOf, planIsBlockProtected, planQuery, hcheck, hn]) rfl
    refine ⟨_, _, hex, rfl, rfl, ?_, hchip⟩
    rw [← hsr, ← srTest_bit _ _ (by omega), ← blockMask_eq hn]

/-! The power mode (spec/43_power_ops.md R120, R121, spec/20_memory.md R48). -/

/-- A wait with chip-select HIGH lets the wake delay run (log 17). -/
theorem State.waited_chip {s : State} (h : s.chip.csLevel = .high) (op : Op) (us : Nat) :
    (s.waited op us).chip = { s.chip with recovery := s.chip.recovery - us } := by
  rw [show (s.waited op us).chip = (s.elapse us).chip from rfl, State.elapse, State.setChip_chip, if_pos h]

/-- Settles O44: the Sleep frame puts the chip to sleep, the wait after the Wake frame lets its delay pass. -/
theorem sleepAndWakeMoveThePowerMode : Obligations.SleepAndWakeMoveThePowerMode := by
  unfold Obligations.SleepAndWakeMoveThePowerMode
  intro s he hb hp hl
  refine ⟨fun hr => ?_, fun hrec => ?_⟩
  · obtain ⟨t, ht, hex⟩ := exec_frame_wait (i := .sleep true) (c := .sleep) he.callsSucceed hb rfl (hr.accepts _)
      trivial
    have hchip := ht.chip_sleep hp
    have hrec := (hr.accepts .sleep).recovered
    refine ⟨_, hex, ?_⟩
    rw [State.completed_chip, State.waited_chip (by rw [hchip]), hchip, State.begun_chip]
    simp [hrec, opOf, mustWakeAfter]
  · obtain ⟨t, ht, hex⟩ := exec_frame_wait (i := .wake true) (c := .wake) he.callsSucceed hb rfl
      (Chip.accepts_wake hp hrec hl) trivial
    obtain ⟨b, hchip⟩ := ht.chip_wake hp
    have hrule : t.audit.sleepRule = s.audit.sleepRule := by
      rw [ht.sleepRule]
      simp [State.begun, planOf, planWake, noPrepare, opOf, Op.wakes]
    refine ⟨_, hex, ?_⟩
    rw [State.completed_chip, State.waited_chip (by rw [hchip]), hchip, State.begun_chip]
    refine ⟨rfl, ?_, rfl, ?_, rfl, hp, rfl, hl, (State.completed_sleepRule _ _ _).trans hrule⟩
    · dsimp only
      split <;> rfl
    · dsimp only
      split
      · exact setWel_writable _ _
      · rfl

end Sys2Proof.Machine
end

section
/-! PROOFS. Which instructions change the array, whatever calls fail (spec/20_memory.md R30). -/

namespace Sys2Proof.Machine

/-! The micro-programs by the command they carry. -/

/-- The command an instruction is there for: that of its one frame, or of the frame in its bracket. -/
def commandOf : Instr → Command
  | .cmdWren | .writeEnable _ => .wren
  | .cmdWrdi | .writeDisable _ | .init _ _ _ _ => .wrdi
  | .cmdRdsr | .readStatusRegister _ _ | .isWriteEnabled _ | .isWriteProtected _ | .isBlockProtected _ _ => .rdsr
  | .cmdWrsr v | .writeStatusRegister _ v => .wrsr v
  | .cmdRead a n => .read a n
  | .read _ _ addr len => .read (maskAddr addr) len.toNat
  | .cmdWrite a d => .write a d
  | .write _ _ addr _ data => .write (maskAddr addr) data
  | .cmdSleep | .sleep _ => .sleep
  | .cmdWake | .wake _ => .wake

/-- The four shapes of a micro-program with the command `c`. -/
inductive FrameShape (c : Command) : List MStep → Prop where
  | frame : FrameShape c (frameSteps 0 c.xfers)
  /-- `init`'s (spec/41_init_wel_ops.md R100). -/
  | afterHigh : FrameShape c (⟨0, .csHigh0, .csHigh0⟩ :: frameSteps 0 c.xfers)
  /-- The power operations' (spec/43_power_ops.md R120, R121). -/
  | beforeWait (us : Nat) : FrameShape c (frameSteps 0 c.xfers ++ [waitStep us])
  /-- The write-type operations' (spec/40_framing.md R96). -/
  | bracketed (hs : c ≠ .sleep) (hw : c ≠ .wake) : FrameShape c (bracketed c.xfers)

theorem planOf_shape (i : Instr) (s : State) : FrameShape (commandOf i) (planOf i s).steps := by
  cases i with
  | init => exact .afterHigh
  | sleep | wake => exact .beforeWait _
  | write | writeStatusRegister => exact .bracketed (by simp [commandOf]) (by simp [commandOf])
  | _ => exact .frame

/-- The check of an operation other than `write` lets no frame through that runs past the array. -/
theorem commandOf_fits {i : Instr} {s : State} (hv : (planOf i s).valid = true) (hw : opOf i ≠ .write) :
    (commandOf i).Fits := by
  cases i with
  | write => exact absurd rfl hw
  | read h buf addr len =>
    simp only [planOf, planRead, checkData, Bool.and_eq_true] at hv
    exact payloadFits_of_rangeOK hv.2.2 rfl
  | cmdRead a n | cmdWrite a n =>
    simp only [planOf, planCmdRead, planCmdWrite, planFrame, payloadOk, Bool.and_eq_true] at hv
    exact hv.2.1
  | _ => trivial

theorem commandOf_ne_write {i : Instr} (hw : opOf i ≠ .write) (hc : opOf i ≠ .cmdWrite) :
    ∀ a d, commandOf i ≠ .write a d := by
  cases i with
  | write => exact absurd rfl hw
  | cmdWrite => exact absurd rfl hc
  | _ => exact fun a d h => nomatch h

theorem commandOf_wake {i : Instr} (h : opOf i = .wake ∨ opOf i = .cmdWake) : commandOf i = .wake := by
  cases i <;> simp_all [opOf, commandOf]

/-! Along a micro-program that carries no WRITE frame. -/

/-- A micro-program in two parts, the second of which runs only from an end of the first. -/
theorem run_append_holds {op : Op} {ms ns : List MStep} {s : State} {first last failed held : State → Prop}
    (h : (run op ms s).Holds first failed held) (k : ∀ t, first t → (run op ns t).Holds last failed held) :
    (run op (ms ++ ns) s).Holds last failed held := by
  rw [run_append]
  cases hr : run op ms s <;> rw [hr] at h
  · exact k _ h
  · exact h
  · exact h

theorem Run.Holds.mono {finished finished' failed failed' held : State → Prop} {r : Run}
    (h : r.Holds finished failed held) (hfin : ∀ t, finished t → finished' t) (hfail : ∀ t, failed t → failed' t) :
    r.Holds finished' failed' held := by
  cases r with
  | finished t => exact hfin t h
  | failed t => exact hfail t h
  | held t => exact h

/-- A frame that is no WRITE frame leaves the array, whole or cut short. -/
theorem run_frame_mem {s : State} {c : Command} (hc : s.chip.Accepts c) (hf : c.Fits) (hw : ∀ a d, c ≠ .write a d)
    (hs : s.Answered) (op : Op) (k : Fin 3) :
    (run op (frameSteps k c.xfers) s).Holds (fun t => s.FrameTaken c t ∧ t.chip.mem = s.chip.mem)
      (fun t => t.chip.mem = s.chip.mem) fun _ => False :=
  (run_frame_chip hc hf hs op k).mono (fun _ ht => ⟨ht, ht.mem hw⟩) fun _ ht => ht.mem hw

/-- An environment that answers, a ready chip, and the array `m`. -/
structure State.ReadyWith (m : Memory) (s : State) : Prop where
  answered : s.Answered
  ready    : s.chip.Ready
  mem      : s.chip.mem = m

theorem State.ReadyWith.run_frame {m : Memory} {s : State} (h : s.ReadyWith m) {c : Command} (hsl : c ≠ .sleep)
    (hf : c.Fits) (hw : ∀ a d, c ≠ .write a d) (op : Op) (k : Fin 3) :
    (run op (frameSteps k c.xfers) s).Holds (State.ReadyWith m) (fun t => t.chip.mem = m) fun _ => False := by
  obtain ⟨hs, hr, hm⟩ := h
  refine (run_frame_mem (hr.accepts c) hf hw hs op k).mono (fun t ht => ?_) fun t ht => ht.trans hm
  obtain ⟨ht, hmem⟩ := ht
  exact ⟨ht.answered hs, ht.ready hr hsl, hmem.trans hm⟩

/-- Each frame of a bracket finds a ready chip: the one before it has ended. -/
theorem run_bracketed_mem {s : State} {c : Command} (hr : s.chip.Ready) (hsl : c ≠ .sleep) (hf : c.Fits)
    (hw : ∀ a d, c ≠ .write a d) (hs : s.Answered) (op : Op) :
    (run op (bracketed c.xfers) s).Holds (fun t => t.chip.mem = s.chip.mem) (fun t => t.chip.mem = s.chip.mem)
      fun _ => False := by
  have hsel := State.ReadyWith.run_frame (m := s.chip.mem) (c := .wren) ⟨hs, hr, rfl⟩ (by simp) trivial (by simp) op 0
  have hmid := run_append_holds hsel fun t ht => ht.run_frame hsl hf hw op 1
  have hall := run_append_holds hmid fun t ht => ht.run_frame (c := .wrdi) (by simp) trivial (by simp) op 2
  exact hall.mono (fun _ ht => ht.mem) fun _ ht => ht

theorem Chip.Accepts.setLevel {c : Chip} {cmd : Command} (h : c.Accepts cmd) (l : CsLevel) :
    Chip.Accepts { c with csLevel := l } cmd :=
  ⟨h.pending, h.recovered, h.known, (c.forbids_onWire l c.pending cmd).trans h.allowed⟩

theorem run_afterHigh_mem {s : State} {c : Command} (hc : s.chip.Accepts c) (hf : c.Fits)
    (hw : ∀ a d, c ≠ .write a d) (hs : s.Answered) (op : Op) :
    (run op (⟨0, .csHigh0, .csHigh0⟩ :: frameSteps 0 c.xfers) s).Holds (fun t => t.chip.mem = s.chip.mem)
      (fun t => t.chip.mem = s.chip.mem) fun _ => False := by
  have hchip := State.deselected_chip_atRest hc.pending hc.recovered op 0 .csHigh0
  have hmem : (s.deselected op 0 .csHigh0).chip.mem = s.chip.mem := by rw [hchip]
  have hperform := perform_csHigh0 hs op 0 .csHigh0
  rw [run, hperform]
  cases hok : headOk s.env <;> rw [hok] at hperform
  · exact hmem
  · have hnext := StepFrame.of_next (m := ⟨0, .csHigh0, .csHigh0⟩) rfl hperform
    have hrun := run_frame_mem (by rw [hchip]; exact hc.setLevel _) hf hw (hnext.answered hs) op 0
    rw [hmem] at hrun
    exact hrun.mono (fun _ ht => ht.2) fun _ ht => ht

/-- Whatever calls fail, a micro-program without a WRITE frame leaves the array of a chip that has a meaning for its
frames. -/
theorem FrameShape.run_mem {c : Command} {ms : List MStep} (h : FrameShape c ms) {s : State} (hc : s.chip.Accepts c)
    (hr : c ≠ .wake → s.chip.Ready) (hf : c.Fits) (hw : ∀ a d, c ≠ .write a d) (hs : s.Answered) (op : Op) :
    (run op ms s).Holds (fun t => t.chip.mem = s.chip.mem) (fun t => t.chip.mem = s.chip.mem) fun _ => False := by
  cases h with
  | frame => exact (run_frame_mem hc hf hw hs op 0).mono (fun _ ht => ht.2) fun _ ht => ht
  | afterHigh => exact run_afterHigh_mem hc hf hw hs op
  | beforeWait us =>
    refine run_append_holds (run_frame_mem hc hf hw hs op 0) fun t ht => ?_
    obtain ⟨ht, hmem⟩ := ht
    simp only [run, perform_wait (ht.answered hs)]
    exact hmem
  | bracketed hsl hwk => exact run_bracketed_mem (hr hwk) hsl hf hw hs op

/-- Settles O50: an instruction that is refused makes no call; another carries, one after the other, frames none of
which is a WRITE frame, each taken, or cut short by a failed call, on a chip that has a meaning for it. -/
theorem onlyWritesChangeTheArray : Obligations.OnlyWritesChangeTheArray := by
  unfold Obligations.OnlyWritesChangeTheArray
  intro i s hs hp hl hrules hw hcw
  suffices hmem : (runPlan i (planOf i s) s).chip.mem = s.chip.mem from ⟨_, exec_eq i s, fun x => by rw [hmem]⟩
  cases hv : (planOf i s).valid with
  | false =>
    obtain ⟨-, -, -, -, -, -, hchip, -⟩ := runPlan_rejected hv
    rw [hchip]
  | true =>
    have hacc : (s.begun i).chip.Accepts (commandOf i) := by
      rw [s.begun_chip]
      rcases hrules with hr | ⟨hwake, hrec⟩
      · exact hr.accepts _
      · rw [commandOf_wake hwake]
        exact Chip.accepts_wake hp hrec hl
    have hready : commandOf i ≠ .wake → (s.begun i).chip.Ready := fun hne => by
      rw [s.begun_chip]
      exact hrules.resolve_right fun h => hne (commandOf_wake h.1)
    have hrun := (planOf_shape i s).run_mem hacc hready (commandOf_fits hv hw) (commandOf_ne_write hw hcw)
      (fun a ha => hs a (s.begun_env i ▸ ha)) (opOf i)
    rw [s.begun_chip] at hrun
    rw [runPlan_valid _ _ _ hv]
    refine conclude_holds (P := fun t => t.chip.mem = s.chip.mem) _ _ hrun (fun t ht => ?_) (fun t ht => ?_)
      fun _ ht => ht.elim
    · rw [State.respondOk_eq]
      exact ht
    · obtain ⟨b, lv, hchip, -⟩ := t.raiseCapabilityFailure_chip (opOf i)
      rw [hchip]
      exact ht

end Sys2Proof.Machine
end

section
/-! PROOFS. The decoder and the encoder at the two ports (spec/30_encoding.md R60 to R70, log 6), and the chip's reading
of the framer's frames (spec/20_memory.md R44, R46). -/

namespace Sys2Proof

open Machine

/-! A command frame out of its encoding (spec/30_encoding.md R61, R63). -/

theorem ne_nil_of_payloadFits {a : Addr} {d : List Byte} (h : payloadFits a d.length = true) : d ≠ [] := by
  rintro rfl
  simp [payloadFits] at h

theorem decodeFrame_read {a : Addr} {p : List Byte} (h : payloadFits a p.length = true) :
    decodeFrame (Config.opcRead :: addrBytes a ++ p) = .ok (.cmdRead a p.length) := by
  simp [decodeFrame, addrBytes, addr_highBits, addrOf_extract, ne_nil_of_payloadFits h, h]

theorem decodeFrame_write {a : Addr} {d : List Byte} (h : payloadFits a d.length = true) :
    decodeFrame (Config.opcWrite :: addrBytes a ++ d) = .ok (.cmdWrite a d) := by
  simp [decodeFrame, addrBytes, addr_highBits, addrOf_extract, ne_nil_of_payloadFits h, h]

theorem decodeFrame_encode {i : Instr} (hs : i.space = .spi) (hw : i.wellFormed = true) :
    decodeFrame (encode i) = .ok i := by
  cases i with
  | cmdWren | cmdWrdi | cmdRdsr | cmdWrsr | cmdSleep | cmdWake => rfl
  | cmdRead a n =>
    have hp : payloadFits a (List.replicate n Config.dummyByte).length = true := by rwa [List.length_replicate]
    rw [encode, decodeFrame_read hp, List.length_replicate]
  | cmdWrite a d => exact decodeFrame_write hw
  | _ => cases hs

/-! A request out of its encoding (log 6). -/

theorem decodeRequest_encode {i : Instr} (hs : i.space = .host) (hw : i.wellFormed = true) :
    decodeRequest (encode i) = .ok (i, []) := by
  cases i with
  | init | writeEnable | writeDisable | sleep | wake | readStatusRegister | writeStatusRegister | isWriteEnabled
  | isWriteProtected | isBlockProtected =>
    simp [decodeRequest, encode, requestByte_op, requestByte_h, requestByte_gpio, requestByte_spi, requestByte_buf]
  | read h buf addr len =>
    simp [decodeRequest, encode, bytes32, requestByte_op, requestByte_h, requestByte_buf, field32_extract]
  | write h buf addr len d =>
    have hd : (if buf then len.toNat else 0) = d.length := (beq_iff_eq.mp hw).symm
    simp [decodeRequest, encode, bytes32, requestByte_op, requestByte_h, requestByte_buf, field32_extract, hd]
  | _ => cases hs

/-- Settles O3: at either port the fields of the encoding, put together again, are the operands. -/
theorem decodeInvertsEncode : Obligations.DecodeInvertsEncode := by
  unfold Obligations.DecodeInvertsEncode
  intro i hw
  cases hs : i.space with
  | host => rw [decode, decodeRequest_encode hs hw]; rfl
  | spi => exact decodeFrame_encode hs hw

/-! What the decoder answers, branch by branch. -/

/-- Where the decoder does not reject, its answer has the property. -/
def AnswersOnly {α : Type} (P : α → Prop) (r : Except Reject α) : Prop := ∀ x, r = .ok x → P x

namespace AnswersOnly

variable {α β : Type} {P : α → Prop}

theorem error {e : Reject} : AnswersOnly P (.error e) := by
  intro x h
  cases h

theorem ok {x : α} (hx : P x) : AnswersOnly P (.ok x) := by
  intro y h
  cases h
  exact hx

theorem ite_of {c : Prop} [Decidable c] {a b : Except Reject α} (ha : c → AnswersOnly P a)
    (hb : ¬c → AnswersOnly P b) : AnswersOnly P (if c then a else b) := by
  split
  · exact ha ‹c›
  · exact hb ‹¬c›

theorem ite {c : Prop} [Decidable c] {a b : Except Reject α} (ha : AnswersOnly P a) (hb : AnswersOnly P b) :
    AnswersOnly P (if c then a else b) := ite_of (fun _ => ha) fun _ => hb

theorem map {f : β → α} {r : Except Reject β} (h : AnswersOnly (fun x => P (f x)) r) : AnswersOnly P (r.map f) := by
  cases r with
  | error e => exact error
  | ok x => exact ok (h x rfl)

end AnswersOnly

/-- A frame's payload is checked before the frame is accepted (R40, R60). -/
theorem decodeFrame_answers (bs : List Byte) :
    AnswersOnly (fun i => i.wellFormed = true ∧ i.space = .spi) (decodeFrame bs) := by
  rcases bs with _ | ⟨opc, rest⟩
  · exact .error
  refine .ite (.ite (.ok ⟨rfl, rfl⟩) .error) <| .ite (.ite (.ok ⟨rfl, rfl⟩) .error) <|
    .ite (.ite (.ok ⟨rfl, rfl⟩) .error) <| .ite (.ite (.ok ⟨rfl, rfl⟩) .error) <|
    .ite ?rdsr <| .ite ?wrsr <| .ite ?read <| .ite ?write .error
  case rdsr | wrsr =>
    split
    · exact .ok ⟨rfl, rfl⟩
    · exact .error
  case read | write =>
    split
    · exact .ite .error <| .ite .error <| .ite_of (fun hfits => .ok ⟨hfits, rfl⟩) fun _ => .error
    · exact .error

/-- A `write` request takes as many data bytes as it has checked are there (R67, log 31). -/
theorem wellFormed_write_take {h buf : Bool} {addr len : Field32} {r : List Byte}
    (hr : ¬r.length < if buf then len.toNat else 0) :
    (Instr.write h buf addr len (r.take (if buf then len.toNat else 0))).wellFormed = true := by
  rw [Instr.wellFormed, List.length_take_of_le (not_lt.mp hr)]
  exact beq_self_eq_true _

theorem decodeRequest_answers (bs : List Byte) :
    AnswersOnly (fun p => p.1.wellFormed = true ∧ p.1.space = .host) (decodeRequest bs) := by
  rcases bs with _ | ⟨b, rest⟩
  · exact .error
  refine .ite ?init <| .ite (.ok ⟨rfl, rfl⟩) <| .ite (.ok ⟨rfl, rfl⟩) <| .ite ?read <| .ite ?write <|
    .ite (.ok ⟨rfl, rfl⟩) <| .ite (.ok ⟨rfl, rfl⟩) <| .ite (.ok ⟨rfl, rfl⟩) <| .ite ?writeStatusRegister <|
    .ite (.ok ⟨rfl, rfl⟩) <| .ite (.ok ⟨rfl, rfl⟩) <| .ite ?isBlockProtected .error
  case init | read | writeStatusRegister | isBlockProtected =>
    split
    · exact .ok ⟨rfl, rfl⟩
    · exact .error
  case write =>
    split
    · exact .ite_of (fun _ => .error) fun hlen => .ok ⟨wellFormed_write_take hlen, rfl⟩
    · exact .error

/-- Settles O4: every branch of the decoder that accepts does so after the checks of `Instr.wellFormed`. -/
theorem decodedInstructionsAreWellFormed : Obligations.DecodedInstructionsAreWellFormed := by
  unfold Obligations.DecodedInstructionsAreWellFormed
  intro sp bs
  cases sp with
  | host => exact (decodeRequest_answers bs).map
  | spi => exact decodeFrame_answers bs

/-! First bytes the decoder knows (spec/30_encoding.md R62, R65, R66, R69). -/

theorem decodeFrame_unknownOpcode {b : Byte} {rest : List Byte}
    (hb : b ∉ [0x06#8, 0x04#8, 0x05#8, 0x01#8, 0x03#8, 0x02#8, 0xB9#8, 0xAB#8]) :
    decodeFrame (b :: rest) = .error (.unknownOpcode b) := by
  simp only [List.mem_cons, List.not_mem_nil, or_false, not_or] at hb
  simp [decodeFrame, hb]

/-- Settles O1: one word for each opcode; a first byte that is none of them meets none of the decoder's eight tests. -/
theorem opcodeBytesNameTheirCommands : Obligations.OpcodeBytesNameTheirCommands := by
  unfold Obligations.OpcodeBytesNameTheirCommands
  exact ⟨rfl, rfl, fun _ => rfl, fun _ => rfl, rfl, rfl, rfl, rfl, fun _ _ => decodeFrame_unknownOpcode⟩

/-- Settles O2: the words are read field by field. -/
theorem selectCodesNameTheirOperations : Obligations.SelectCodesNameTheirOperations := by
  unfold Obligations.SelectCodesNameTheirOperations
  exact ⟨rfl, rfl, rfl, rfl, rfl, rfl, rfl, rfl, rfl, rfl, rfl, rfl⟩

theorem decodeRequest_reservedOp {op : BitVec 4} (hop : 12 ≤ op.toNat) (h gpio spi buf : Bool) (bs : List Byte) :
    decodeRequest (requestByte op h gpio spi buf :: bs) = .error (.reservedOp op) := by
  have hne : ∀ c : BitVec 4, c.toNat < 12 → op ≠ c := by
    rintro c hc rfl
    omega
  simp [decodeRequest, requestByte_op, hne]

/-- Settles O10: the decoder rejects the code whatever stands beside it, and the step answers that rejection itself. -/
theorem reservedSelectCodesRejected : Obligations.ReservedSelectCodesRejected := by
  unfold Obligations.ReservedSelectCodesRejected
  intro s op h gpio spi buf bs rest hop he hq hh
  have hstep : step s = .next ((s.setHost rest).answerReserved op) := by
    rw [step, State.fetch_request he hq hh, fetchBytes, decode, decodeRequest_reservedOp hop]
    rfl
  refine ⟨_, hstep, ?_, ⟨_, rfl, rfl, rfl⟩, rfl, rfl, rfl, rfl, rfl⟩
  exact List.append_assoc s.trace [.reqReserved op] [.rsp .invalidArgument false none none]

/-! The framer's frames (spec/40_framing.md R84 to R91). -/

theorem content_singleton (x : Xfer) : content [x] = x.tx := List.flatMap_singleton Xfer.tx x

/-- Settles O5: a frame of one transfer sends what that transfer sends; RDSR sends its opcode and its dummy byte apart. -/
theorem frameContentIsTheEncoding : Obligations.FrameContentIsTheEncoding := by
  unfold Obligations.FrameContentIsTheEncoding
  exact ⟨rfl, rfl, rfl, fun _ => rfl, fun _ _ => content_singleton _, fun _ _ => content_singleton _, rfl, rfl⟩

/-- Settles O6, command by command. -/
theorem chipReadsWhatTheFramerSends : Obligations.ChipReadsWhatTheFramerSends := by
  unfold Obligations.ChipReadsWhatTheFramerSends
  exact ⟨chipDecode_xfers (c := .wren) trivial, chipDecode_xfers (c := .wrdi) trivial,
    chipDecode_xfers (c := .rdsr) trivial, fun v => chipDecode_xfers (c := .wrsr v) trivial,
    fun a n h => chipDecode_xfers (c := .read a n) h, fun a d h => chipDecode_xfers (c := .write a d) h,
    chipDecode_xfers (c := .sleep) trivial, chipDecode_xfers (c := .wake) trivial⟩

end Sys2Proof
end

section
/-! PROOFS. The events of a frame and of its bracket, in an environment that answers every call (spec/40_framing.md R80
to R83, R96). -/

namespace Sys2Proof.Machine

/-- Settles O19: micro-programs in sequence, one after the other. -/
theorem bracketStopsAtTheFirstFailedFrame : Obligations.BracketStopsAtTheFirstFailedFrame := by
  unfold Obligations.BracketStopsAtTheFirstFailedFrame
  intro op f s
  rw [bracketed, List.append_assoc, run_append]
  cases run op (frameSteps 0 cmdWREN) s with
  | finished t => exact run_append op _ _ t
  | failed t => rfl
  | held t => rfl

/-- The events of the transfers `xs` made one after the other: all of them succeeded, or they end with the first that
failed (R81). -/
inductive XfersShown : Bool → List Xfer → List Event → Prop where
  | none : XfersShown true [] []
  | fails (x : Xfer) (xs : List Xfer) (rx : Option (List Byte)) :
      XfersShown false (x :: xs) [.xfer x.tx x.wantRx false rx]
  | succeeds {ok : Bool} {xs : List Xfer} {evs : List Event} (x : Xfer) (rx : Option (List Byte))
      (h : XfersShown ok xs evs) : XfersShown ok (x :: xs) (.xfer x.tx x.wantRx true rx :: evs)

section
variable {ok : Bool} {xs : List Xfer} {evs : List Event}

/-- They are the first so many of the list, in its order. -/
theorem XfersShown.inOrder (h : XfersShown ok xs evs) :
    List.Forall₂ (fun e x => ∃ ok rx, e = Event.xfer x.tx x.wantRx ok rx) evs (xs.take evs.length) := by
  induction h with
  | none => exact .nil
  | fails x xs rx => exact .cons ⟨false, rx, rfl⟩ .nil
  | succeeds x rx _ ih => exact .cons ⟨true, rx, rfl⟩ ih

theorem XfersShown.dropLast_succeed (h : XfersShown ok xs evs) : ∀ e ∈ evs.dropLast, e.failed = false := by
  induction h with
  | none | fails => exact fun _ he => nomatch he
  | @succeeds _ _ evs x rx _ ih =>
    cases evs with
    | nil => exact fun _ he => nomatch he
    | cons e evs => exact List.forall_mem_cons.mpr ⟨rfl, ih⟩

theorem XfersShown.length_of_succeed (h : XfersShown true xs evs) : evs.length = xs.length := by
  generalize hok : true = ok at h
  induction h with
  | none => rfl
  | fails => cases hok
  | succeeds x rx _ ih => exact congrArg (· + 1) (ih hok)

theorem XfersShown.any_failed (h : XfersShown ok xs evs) : evs.any Event.failed = !ok := by
  induction h with
  | none | fails => rfl
  | succeeds x rx _ ih => exact ih

end

/-- The deselect attempt comes on every path, and the frame is finished exactly when no call of it has failed (R83). -/
theorem run_csHigh {s : State} (hs : s.Answered) (op : Op) (k : Fin 3) :
    ∃ t, t.trace = s.trace ++ [.pin s.handle.csPin .high (headOk s.env)] ∧
      run op [⟨k, .csHigh, .csHigh⟩] s = if !s.work.fail && headOk s.env then .finished t else .failed t := by
  obtain ⟨-, -, -, -, -, -, -, -, -, htrace⟩ := s.deselected_frame op k .csHigh
  simp only [run, perform_csHigh hs]
  cases hf : s.work.fail <;> cases hok : headOk s.env <;> rw [hok] at htrace
  case false.true => exact ⟨_, htrace, rfl⟩
  all_goals exact ⟨(s.deselected op k .csHigh).setFail true, htrace, rfl⟩

/-- After a failed call of the frame no transfer is made (R81). -/
theorem run_xferSteps_skipped {s : State} (hf : s.work.fail = true) (op : Op) (k : Fin 3) (st : Step) (xs : List Xfer)
    (ms : List MStep) : run op (xferSteps k st xs ++ ms) s = run op ms s := by
  induction xs generalizing st with
  | nil => rfl
  | cons x xs ih =>
    simp only [xferSteps, List.cons_append, run, perform_xfer_skipped s op k st x hf]
    exact ih _

/-- Where no call of the frame has failed yet its transfers are made, up to the first that fails, and then the deselect
attempt; the frame is finished exactly when all these calls succeeded (R81, R83). -/
theorem run_xferSteps_shown {s : State} (hs : s.Answered) (hf : s.work.fail = false) (op : Op) (k : Fin 3) (st : Step)
    (xs : List Xfer) :
    ∃ t okH ok evs, t.trace = s.trace ++ (evs ++ [.pin s.handle.csPin .high okH]) ∧ XfersShown ok xs evs ∧
      run op (xferSteps k st xs ++ [⟨k, .csHigh, .csHigh⟩]) s = if ok && okH then .finished t else .failed t := by
  induction xs generalizing s st with
  | nil =>
    obtain ⟨t, htrace, hrun⟩ := run_csHigh hs op k
    exact ⟨t, _, true, [], htrace, .none, by rw [xferSteps, List.nil_append, hrun, hf]; rfl⟩
  | cons x xs ih =>
    set u := s.transferred op k st x with hu
    obtain ⟨hhandle, -, -, -, -, henv, -, hwork, htrace⟩ := s.transferred_frame op k st x
    rw [← hu] at hhandle henv hwork htrace
    obtain ⟨rx, htrace⟩ : ∃ rx, u.trace = s.trace ++ [.xfer x.tx x.wantRx (headOk s.env) rx] := ⟨_, htrace⟩
    have hua : u.Answered := fun a ha => hs.tail a (henv ▸ ha)
    simp only [xferSteps, List.cons_append, run, perform_xfer hs op k st x hf, ← hu]
    cases hok : headOk s.env <;> rw [hok] at hwork htrace
    case false =>
      have hfu : u.work.fail = true := congrArg Work.fail hwork
      obtain ⟨t, ht, hrun⟩ := run_csHigh hua op k
      refine ⟨t, headOk u.env, false, _, ?_, .fails x xs rx, ?_⟩
      · rw [ht, htrace, hhandle, List.append_assoc]
      · rw [run_xferSteps_skipped hfu, hrun, hfu]
        rfl
    case true =>
      obtain ⟨t, okH, ok, evs, ht, hshown, hrun⟩ := ih hua (congrArg Work.fail hwork) .xfer1
      refine ⟨t, okH, ok, _, ?_, .succeeds x rx hshown, hrun⟩
      rw [ht, htrace, hhandle, List.append_assoc]
      rfl

/-- Settles O18: the select leaves in FAIL whether it failed, and the rest of the frame goes by FAIL. -/
theorem frameSelectsTransfersDeselects : Obligations.FrameSelectsTransfersDeselects := by
  unfold Obligations.FrameSelectsTransfersDeselects
  intro op k xs s hs
  set u := s.selected op k (content xs) with hu
  obtain ⟨hhandle, -, -, -, -, henv, -, hwork, htrace⟩ := s.selected_frame op k (content xs)
  rw [← hu] at hhandle henv hwork htrace
  have hua : u.Answered := fun a ha => hs.tail a (henv ▸ ha)
  simp only [frameSteps, run, perform_csLow hs op k (content xs), ← hu]
  cases hok : headOk s.env <;> rw [hok] at hwork htrace
  case false =>
    have hfu : u.work.fail = true := congrArg Work.fail hwork
    obtain ⟨t, ht, hrun⟩ := run_csHigh hua op k
    rw [hfu] at hrun
    refine ⟨t, false, headOk u.env, [], ?_, .nil, fun _ => rfl, nofun, .inr ⟨?_, .inl rfl⟩⟩
    · rw [ht, htrace, hhandle, List.append_assoc]
    · exact (run_xferSteps_skipped hfu op k .xfer0 xs _).trans hrun
  case true =>
    obtain ⟨t, okH, ok, evs, ht, hshown, hrun⟩ := run_xferSteps_shown hua (congrArg Work.fail hwork) op k .xfer0 xs
    have hfailed := hshown.any_failed
    refine ⟨t, true, okH, evs, ?_, hshown.inOrder, nofun, hshown.dropLast_succeed, ?_⟩
    · rw [ht, htrace, hhandle, List.append_assoc]
      rfl
    rw [hrun]
    cases ok with
    | false => exact .inr ⟨rfl, .inr (.inr (List.any_eq_true.mp hfailed))⟩
    | true =>
      cases okH with
      | false => exact .inr ⟨rfl, .inr (.inl rfl)⟩
      | true => exact .inl ⟨rfl, rfl, rfl, hshown.length_of_succeed, by simpa using hfailed⟩

end Sys2Proof.Machine
end

section
/-! PROOFS. Instructions of one frame, when every call succeeds: from the frame's events to the response
(spec/40_framing.md R80, R84 to R91; log 7). -/

namespace Sys2Proof.Machine

/-- From a frame all of whose calls succeeded to the response OK of its instruction. -/
theorem FrameDone.completes {i : Instr} {s t : State} {evs : List Event} {r : Result} {v : Bool} {sr : Option Byte}
    {d : Option (List Byte)} (h : FrameDone (s.begun i) t evs) (hi : opOf i ≠ .init)
    (hr : t.respondOk r = t.respond .ok v sr d) :
    Completes i s (t.completed i r) s.handle (frameEvents s.handle.csPin evs) v sr d := by
  have hb := s.begun_prepared i
  have hh : (s.begun i).handle = s.handle := planOf_prepare_handle hi s _
  rw [State.completed, hr]
  refine ⟨?_, ⟨_, rfl, rfl, rfl, ?_, ?_⟩, h.handle.trans hh, rfl, h.params.trans hb.params,
    h.host.trans hb.host, h.level⟩
  · rw [State.noteOutcome_trace, State.respond_trace, h.trace, hb.trace, hh, State.accept_trace]
    simp
  · rintro b rfl
    rfl
  · rintro b rfl
    rfl

section
variable {i : Instr} {s : State}

theorem State.CallsSucceed.begun (hs : s.CallsSucceed) (i : Instr) : (s.begun i).CallsSucceed :=
  hs.of_subset fun _ ha => s.begun_env i ▸ ha

/-- A frame of one transfer without receive. -/
theorem exec_sent (hs : s.CallsSucceed) (hi : opOf i ≠ .init) (hv : (planOf i s).valid = true) {tx : List Byte}
    (hsteps : (planOf i s).steps = frameSteps 0 [⟨tx, false⟩]) (hresult : (planOf i s).result = noResult) :
    ∃ t, exec i s = .next t ∧
      Completes i s t s.handle (frameEvents s.handle.csPin [sent tx]) false none none := by
  obtain ⟨t, rx, hrun, -, hdone, -⟩ := run_frame_one (hs.begun i) (opOf i) 0 ⟨tx, false⟩
  refine ⟨_, exec_finished hv (hsteps ▸ hrun), ?_⟩
  rw [hresult]
  exact hdone.completes hi rfl

/-- A frame of one transfer with receive, the payload of which is the result (R88). -/
theorem exec_dataFrame (hs : s.CallsSucceed) (hi : opOf i ≠ .init) (hv : (planOf i s).valid = true) {tx : List Byte}
    (hsteps : (planOf i s).steps = frameSteps 0 [⟨tx, true⟩])
    (hresult : (planOf i s).result = fun t => .data (receivedData t)) :
    ∃ t rx, exec i s = .next t ∧ rx.length = tx.length ∧
      Completes i s t s.handle (frameEvents s.handle.csPin [exchanged tx rx]) false none (some (rx.drop 4)) := by
  obtain ⟨t, rx, hrun, hlen, hdone, hrx⟩ := run_frame_one (hs.begun i) (opOf i) 0 ⟨tx, true⟩
  refine ⟨_, rx, exec_finished hv (hsteps ▸ hrun), hlen, ?_⟩
  have hdata : receivedData t = rx.drop 4 := congrArg (List.drop 4) hrx
  rw [hresult, ← hdata]
  exact hdone.completes hi rfl

/-- A status-read frame: its second transfer receives the one byte that is read (R86). -/
theorem exec_statusFrame (hs : s.CallsSucceed) (hv : (planOf i s).valid = true)
    (hsteps : (planOf i s).steps = frameSteps 0 cmdRDSR) :
    ∃ t b, exec i s = .next (t.completed i ((planOf i s).result t)) ∧ receivedSr t = b ∧
      FrameDone (s.begun i) t [sent [0x05#8], exchanged [0x00#8] [b]] := by
  obtain ⟨t, rx, hrun, hlen, hdone, hrx⟩ :=
    run_frame_two (hs.begun i) (opOf i) 0 ⟨[Config.opcRdsr], false⟩ ⟨[Config.dummyByte], true⟩ rfl
  obtain ⟨b, rfl⟩ := List.length_eq_one_iff.mp hlen
  refine ⟨t, b, exec_finished hv (hsteps ▸ hrun), ?_, hdone⟩
  rw [receivedSr, show t.work.rxbuf = [b] from hrx]
  rfl

end

/-- Settles O37, frame by frame. -/
theorem loneFramesComplete : Obligations.LoneFramesComplete := by
  unfold Obligations.LoneFramesComplete
  intro s hs hb
  have checked : ∀ {p : Bool}, p = true → (s.handle.bound && p) = true := fun hp => by rw [hb, hp]; rfl
  refine ⟨exec_sent (i := .cmdWren) hs nofun (checked rfl) rfl rfl,
    exec_sent (i := .cmdWrdi) hs nofun (checked rfl) rfl rfl, ?rdsr,
    fun v => exec_sent (i := .cmdWrsr v) hs nofun (checked rfl) rfl rfl, fun a n hp => ?read,
    fun a d hp => exec_sent (i := .cmdWrite a d) hs nofun (checked hp) rfl rfl,
    exec_sent (i := .cmdSleep) hs nofun (checked rfl) rfl rfl,
    exec_sent (i := .cmdWake) hs nofun (checked rfl) rfl rfl⟩
  case rdsr =>
    obtain ⟨t, b, hex, rfl, hdone⟩ := exec_statusFrame (i := .cmdRdsr) hs (checked rfl) rfl
    exact ⟨_, _, hex, hdone.completes nofun rfl⟩
  case read =>
    obtain ⟨t, rx, hex, hlen, hc⟩ := exec_dataFrame (i := .cmdRead a n) hs nofun (checked hp) rfl rfl
    have hlen' : rx.length = 4 + n := hlen.trans (by simp [addrBytes]; omega)
    exact ⟨t, rx, hex, hlen', hc⟩

end Sys2Proof.Machine
end

section
/-! PROOFS. The chip-select invariant in terms of events (spec/40_framing.md R82), in an environment that answers every
call. -/

namespace Sys2Proof.Machine

/-- The events `l` alternate as far as they go, and lead from a select that stands open (`sel`) or not to one that does
(`sel'`) or not. -/
def CsLeads (sel : Bool) (l : List Event) (sel' : Bool) : Prop :=
  ∀ l', csAlternates sel (l ++ l') = csAlternates sel' l'

theorem CsLeads.nil (sel : Bool) : CsLeads sel [] sel := fun _ => rfl

theorem CsLeads.append {sel₁ sel₂ sel₃ : Bool} {l l' : List Event} (h : CsLeads sel₁ l sel₂)
    (k : CsLeads sel₂ l' sel₃) : CsLeads sel₁ (l ++ l') sel₃ := fun l'' => by rw [List.append_assoc, h, k]

theorem CsLeads.alternates {l : List Event} (h : CsLeads false l false) : csAlternates false l = true := by
  have := h []
  rwa [List.append_nil] at this

theorem csLeads_req (i : Instr) : CsLeads false [.req i] false := fun _ => rfl

theorem csLeads_rsp (st : Status) (v : Bool) (sr : Option Byte) (d : Option (List Byte)) :
    CsLeads false [.rsp st v sr d] false := fun _ => rfl

/-- The event of a step leads from where it is made, inside a frame or not, to what it leaves open. -/
theorem Act.Shows.csLeads {a : Act} {e : Event} (h : a.Shows e) (ha : a ≠ .csHigh0) :
    CsLeads a.inside [e] a.leavesOpen := by
  cases h with
  | csHigh0 => exact absurd rfl ha
  | csLow | xfer | csHigh | wait => exact fun _ => rfl

/-- A pin write HIGH leaves no frame open. -/
theorem Act.leavesOpen_of_drivesHigh {a : Act} (h : a.drivesHigh = true) : a.leavesOpen = false := by
  cases a with
  | csHigh0 | csHigh | wait => rfl
  | csLow | xfer => cases h

/-- From `s` to `t` the events lead from no frame open to `sel`. -/
def State.Leads (s : State) (sel : Bool) (t : State) : Prop :=
  ∃ l, t.trace = s.trace ++ l ∧ CsLeads false l sel

theorem State.Leads.refl (s : State) : s.Leads false s := ⟨[], (List.append_nil _).symm, .nil false⟩

theorem State.Leads.event {s t u : State} {sel sel' : Bool} {e : Event} (h : s.Leads sel t)
    (ht : u.trace = t.trace ++ [e]) (he : CsLeads sel [e] sel') : s.Leads sel' u := by
  obtain ⟨l, hl, hc⟩ := h
  exact ⟨l ++ [e], by rw [ht, hl, List.append_assoc], hc.append he⟩

/-- An operation in an environment that answers, with the rest `ms` of its micro-program still to make and `init`'s pin
write, if there was one, behind it. -/
structure State.Alternating (s : State) (ms : List MStep) (t : State) : Prop where
  answered : t.Answered
  planned  : WellPlanned ms
  framed   : ∀ m ∈ ms, m.act ≠ .csHigh0
  leads    : s.Leads (frameOpen ms) t

theorem perform_alternating {op : Op} {m : MStep} {ms : List MStep} {s t : State} (h : s.Alternating (m :: ms) t) :
    (perform op m t).Holds (s.Alternating ms) (s.Leads false) fun _ => False := by
  obtain ⟨hm, hopen, hms⟩ := h.planned
  obtain ⟨ha, hframed⟩ := List.forall_mem_cons.mp h.framed
  have leads : ∀ {ok u}, StepMade m.act ok t u → s.Leads m.act.leavesOpen u := fun hu => by
    obtain ⟨e, htrace, hshows, -⟩ := hu.event
    exact h.leads.event htrace (hshows.csLeads ha)
  refine perform_holds hm fun r hr => ?_
  cases hr with
  | skipped x hx hf =>
    have hsame : m.act.leavesOpen = m.act.inside := by rw [hx]; rfl
    exact ⟨h.answered, hms, hframed, by rw [← hopen, hsame]; exact h.leads⟩
  | passes ok u hu hp => exact ⟨hu.answered h.answered, hms, hframed, hopen ▸ leads hu⟩
  | aborts ok u hu hd => exact Act.leavesOpen_of_drivesHigh hd ▸ leads hu
  | stands u ho hn => exact hn h.answered
  | reset u ho hn => exact hn h.answered

theorem run_alternates {s : State} (hs : s.Answered) {ms : List MStep} (hw : WellPlanned ms)
    (hf : ∀ m ∈ ms, m.act ≠ .csHigh0) (ho : frameOpen ms = false) (op : Op) :
    (run op ms s).Holds (s.Leads false) (s.Leads false) fun _ => False :=
  (run_holds (fun _ _ _ => perform_alternating) ⟨hs, hw, hf, ho ▸ .refl s⟩).mono (fun _ ht => ht.leads) fun _ ht => ht

/-- The response comes where no frame is open. -/
theorem conclude_leads {s : State} {r : Run} (h : r.Holds (s.Leads false) (s.Leads false) fun _ => False) (op : Op)
    (result : State → Result) : s.Leads false (conclude op result r) := by
  refine conclude_holds op result h (fun t ht => ?_) (fun t ht => ?_) fun _ ht => ht.elim
  · rw [State.respondOk_eq]
    exact ht.event rfl (csLeads_rsp _ _ _ _)
  · exact ht.event (t.raiseCapabilityFailure_trace op) (csLeads_rsp _ _ _ _)

/-- Only `init` drives chip-select HIGH before its frame (spec/41_init_wel_ops.md R100). -/
theorem planOf_ne_csHigh0 {i : Instr} (hi : opOf i ≠ .init) (s : State) :
    ∀ m ∈ (planOf i s).steps, m.act ≠ .csHigh0 := by
  cases i with
  | init => exact absurd rfl hi
  | _ => exact of_decide_eq_true rfl

/-- Every micro-program begins with no frame open. -/
theorem planOf_frameOpen (i : Instr) (s : State) : frameOpen (planOf i s).steps = false := by
  cases i <;> rfl

/-- `init`'s micro-program: after its leading pin write the events are those of a frame. -/
theorem run_init_alternates {s : State} (hs : s.Answered) (op : Op) :
    ∃ (t : State) (p : Pin) (ok : Bool), t.trace = s.trace ++ [.pin p .high ok] ∧
      (run op (⟨0, .csHigh0, .csHigh0⟩ :: frameSteps 0 cmdWRDI) s).Holds (t.Leads false) (t.Leads false)
        fun _ => False := by
  obtain ⟨-, -, -, -, -, henv, -, -, -, htrace⟩ := s.deselected_frame op 0 .csHigh0
  refine ⟨_, _, _, htrace, ?_⟩
  rw [run, perform_csHigh0 hs]
  cases headOk s.env with
  | false => exact .refl _
  | true =>
    exact run_alternates (fun a ha => hs.tail a (henv ▸ ha)) (wellPlanned_frameSteps 0 cmdWRDI)
      (of_decide_eq_true rfl) rfl op

/-- An instruction whose check passes, from its micro-program to its response. -/
theorem exec_valid {i : Instr} {s : State} (hv : (planOf i s).valid = true) :
    exec i s = .next (conclude (opOf i) (planOf i s).result (run (opOf i) (planOf i s).steps (s.begun i))) := by
  rw [exec_eq, runPlan_valid _ _ _ hv]
  rfl

/-- Settles O20: a step of a frame leads from where the step before it has left chip-select, and the response comes
where no frame is open; `init`'s pin write HIGH is made before its frame. -/
theorem chipSelectAlternates : Obligations.ChipSelectAlternates := by
  unfold Obligations.ChipSelectAlternates
  intro i s hs
  cases hv : (planOf i s).valid with
  | false =>
    obtain ⟨htrace, -⟩ := runPlan_rejected hv
    exact ⟨_, _, exec_eq i s, htrace, fun _ => rfl, fun _ => .inl rfl⟩
  | true =>
    have hsb : (s.begun i).Answered := fun a ha => hs a (s.begun_env i ▸ ha)
    have hreq : (s.begun i).trace = s.trace ++ [.req i] := (s.begun_prepared i).trace
    by_cases hi : opOf i = .init
    · obtain ⟨h, gpio, spi, pin, rfl⟩ := eq_init_of_opOf hi
      obtain ⟨t, p, ok, ht, hrun⟩ := run_init_alternates hsb .init
      obtain ⟨l, hl, hleads⟩ := conclude_leads hrun .init noResult
      refine ⟨_, .req _ :: .pin p .high ok :: l, exec_valid hv, ?_, fun hne => absurd hi hne,
        fun _ => .inr ⟨p, ok, l, rfl, hleads.alternates⟩⟩
      rw [List.append_cons, List.append_cons, ← hreq, ← ht]
      exact hl
    · have hrun := run_alternates hsb (wellPlanned_planOf i s) (planOf_ne_csHigh0 hi s) (planOf_frameOpen i s) (opOf i)
      obtain ⟨l, hl, hleads⟩ := conclude_leads hrun (opOf i) (planOf i s).result
      refine ⟨_, .req i :: l, exec_valid hv, ?_, fun _ => hleads.alternates, fun h => absurd h hi⟩
      rw [List.append_cons, ← hreq]
      exact hl

end Sys2Proof.Machine
end

section
/-! PROOFS. How many calls and waits an operation makes, however often it is left open (spec/40_framing.md R92, R93):
its events are those of steps of its micro-program, each of which is passed once. -/

namespace Sys2Proof.Machine

/-- The step makes a capability call. -/
def Act.isCall : Act → Bool
  | .csHigh0 | .csLow _ | .xfer _ | .csHigh => true
  | .wait _ => false

/-- The step is a wait. -/
def Act.isWait : Act → Bool
  | .csHigh0 | .csLow _ | .xfer _ | .csHigh => false
  | .wait _ => true

theorem Act.Shows.isCall_eq {a : Act} {e : Event} (h : a.Shows e) : e.isCall = a.isCall := by
  cases h <;> rfl

theorem Act.Shows.isWait_eq {a : Act} {e : Event} (h : a.Shows e) : e.isWait = a.isWait := by
  cases h <;> rfl

/-- Where every step shows one event there are as many events of a kind as steps of that kind. -/
theorem countP_of_shows {p : Event → Bool} {q : Act → Bool} (hpq : ∀ {a e}, a.Shows e → p e = q a) {ms : List MStep}
    {l : List Event} (h : List.Forall₂ (fun m e => m.act.Shows e) ms l) : l.countP p = ms.countP (q ·.act) := by
  induction h with
  | nil => rfl
  | cons he _ ih => rw [List.countP_cons, List.countP_cons, hpq he, ih]

/-! The place of a step in its micro-program. -/

/-- No two steps of a micro-program have the same place (spec/10_state.md R14). -/
theorem planOf_places_nodup (i : Instr) (s : State) : ((planOf i s).steps.map fun m => (m.frame, m.step)).Nodup := by
  cases i <;> exact of_decide_eq_true rfl

/-- Places that are all different tell where a micro-program goes on. -/
theorem stepsFrom_of_suffix {ms ns : List MStep} {m : MStep} (hnd : (ms.map fun m => (m.frame, m.step)).Nodup)
    (h : m :: ns <:+ ms) : stepsFrom m.frame m.step ms = m :: ns := by
  obtain ⟨l, rfl⟩ := h
  rw [List.map_append, List.nodup_append] at hnd
  obtain ⟨-, -, hne⟩ := hnd
  have hskip : ∀ n ∈ l, (!(n.frame == m.frame && n.step == m.step)) = true := fun n hn => by
    have := hne _ (List.mem_map_of_mem hn) (m.frame, m.step) List.mem_cons_self
    simpa [imp_iff_not_or] using this
  rw [stepsFrom, List.dropWhile_append_of_pos hskip, List.dropWhile_cons_of_neg (by simp)]

/-! Along a micro-program. -/

/-- After the instruction `i`, taken up at `s`, has shown its request, each event is that of a step of its
micro-program, and the steps `ms` are still to come. -/
def State.ShowsSteps (s : State) (i : Instr) (ms : List MStep) (t : State) : Prop :=
  ∃ done l, (done ++ ms).Sublist (planOf i s).steps ∧ List.Forall₂ (fun m e => m.act.Shows e) done l ∧
    t.trace = s.trace ++ .req i :: l

theorem State.ShowsSteps.drop {s t u : State} {i : Instr} {ms ns : List MStep} (h : s.ShowsSteps i ms t)
    (hn : ns.Sublist ms) (hu : u.trace = t.trace) : s.ShowsSteps i ns u := by
  obtain ⟨done, l, hsub, hl, ht⟩ := h
  exact ⟨done, l, ((List.Sublist.refl done).append hn).trans hsub, hl, hu.trans ht⟩

/-- A step made shows its own event. -/
theorem State.ShowsSteps.made {s t u : State} {i : Instr} {m : MStep} {ms : List MStep} {ok : Bool}
    (h : s.ShowsSteps i (m :: ms) t) (hu : StepMade m.act ok t u) : s.ShowsSteps i ms u := by
  obtain ⟨done, l, hsub, hl, ht⟩ := h
  obtain ⟨e, htrace, he, -⟩ := hu.event
  refine ⟨done ++ [m], l ++ [e], ?_, List.rel_append hl (.cons he .nil), ?_⟩
  · rwa [List.append_assoc, List.singleton_append]
  · rw [htrace, ht, List.append_assoc, List.cons_append]

/-- The instruction `i`, taken up at `s`, followed through any number of steps of the machine: it is in flight at a step
of its micro-program, or it has ended. -/
inductive State.Follows (s : State) (i : Instr) : State → Prop where
  | inFlight {t : State} (m : MStep) (ms : List MStep) (hms : m :: ms <:+ (planOf i s).steps)
      (hq : t.seq = .busy (opOf i) m.frame m.step) (hrq : t.work.rq = some i) (ht : s.ShowsSteps i (m :: ms) t) :
      State.Follows s i t
  | ended {t : State} (u : State) (r : List Event) (hu : s.ShowsSteps i [] u) (hq : t.seq = .idle)
      (ht : t.trace = u.trace ++ r) (hr : ∀ e ∈ r, e.isCall = false ∧ e.isWait = false) : State.Follows s i t

/-- The reset event ends an operation without a response. -/
theorem State.ShowsSteps.reset {s t : State} {i : Instr} {ms : List MStep} (h : s.ShowsSteps i ms t) :
    s.Follows i t.applyReset :=
  .ended t [] (h.drop (List.nil_sublist _) rfl) rfl (List.append_nil _).symm nofun

/-- A response ends an operation. -/
theorem State.ShowsSteps.respond {s t u : State} {i : Instr} {ms : List MStep} (h : s.ShowsSteps i ms t)
    (hq : u.seq = .idle) {st v sr d} (hu : u.trace = t.trace ++ [.rsp st v sr d]) : s.Follows i u :=
  .ended t _ (h.drop (List.nil_sublist _) rfl) hq hu fun e he => by
    rw [List.mem_singleton.mp he]
    exact ⟨rfl, rfl⟩

/-- The rest `ms` of the micro-program of `i` is still to make. -/
structure State.Rest (s : State) (i : Instr) (ms : List MStep) (t : State) : Prop where
  suffix : ms <:+ (planOf i s).steps
  rq     : t.work.rq = some i
  shows  : s.ShowsSteps i ms t

theorem perform_rest {s t : State} {i : Instr} {m : MStep} {ms : List MStep} (h : s.Rest i (m :: ms) t) :
    (perform (opOf i) m t).Holds (s.Rest i ms) (s.ShowsSteps i []) (s.Follows i) := by
  have hm : m.WellPlaced := (wellPlanned_planOf i s).wellPlaced m (h.suffix.subset List.mem_cons_self)
  have hms : ms <:+ (planOf i s).steps := (List.suffix_cons m ms).trans h.suffix
  refine perform_holds hm fun r hr => ?_
  cases hr with
  | skipped x ha hf => exact ⟨hms, h.rq, h.shows.drop (List.sublist_cons_self m ms) rfl⟩
  | passes ok u hu hp => exact ⟨hms, hu.rq.trans h.rq, h.shows.made hu⟩
  | aborts ok u hu hd => exact (h.shows.made hu).drop (List.nil_sublist ms) rfl
  | stands u ho hn => exact .inFlight m ms h.suffix ho.seq (ho.rq.trans h.rq) (h.shows.drop (.refl _) ho.trace)
  | reset u ho hn => exact (h.shows.drop (.refl _) ho.trace).reset

theorem conclude_follows {s t : State} {i : Instr} {ms : List MStep} (h : s.Rest i ms t) (result : State → Result) :
    s.Follows i (conclude (opOf i) result (run (opOf i) ms t)) := by
  refine conclude_holds _ _ (run_holds (fun _ _ _ => perform_rest) h) (fun u hu => ?_) (fun u hu => ?_) fun _ hu => hu
  · rw [State.respondOk_eq]
    exact hu.shows.respond rfl rfl
  · exact hu.respond (u.raiseCapabilityFailure_seq _) (u.raiseCapabilityFailure_trace _)

/-! From step to step of the machine. -/

theorem runPlan_follows (i : Instr) (s : State) : s.Follows i (runPlan i (planOf i s) s) := by
  have hshown : ∀ {t : State}, t.trace = s.trace ++ [.req i] → s.ShowsSteps i (planOf i s).steps t := fun ht =>
    ⟨[], [], .refl _, .nil, ht⟩
  cases hv : (planOf i s).valid with
  | false =>
    rw [runPlan_invalid _ _ _ hv]
    exact (hshown (s.accept_trace i)).respond rfl (State.respond_trace _ _ _ _ _)
  | true =>
    have hp := planOf_prepare i s (s.accept i)
    rw [runPlan_valid _ _ _ hv]
    exact conclude_follows ⟨List.suffix_rfl, hp.rq, hshown hp.trace⟩ _

theorem step_follows {s t u : State} {i : Instr} (h : s.Follows i t) (hbusy : t.seq ≠ .idle) (hst : step t = .next u) :
    s.Follows i u := by
  cases h with
  | ended _ _ _ hq => exact absurd hq hbusy
  | inFlight m ms hms hq hrq ht =>
    have hrest : s.Rest i (m :: ms) t := ⟨hms, hrq, ht⟩
    have hcall := ((wellPlanned_planOf i s).wellPlaced m (hms.subset List.mem_cons_self)).step_isCall
    cases step_steps hst with
    | reset e => exact (ht.drop (.refl _) rfl : s.ShowsSteps i (m :: ms) (t.setEnv e)).reset
    | rests => exact .inFlight m ms hms hq hrq ht
    | pauses _ _ hidle | runs _ _ hidle | reserved _ _ hidle => exact absurd hidle hbusy
    | resumes op k st _ hq' hr =>
      obtain ⟨rfl, rfl, rfl⟩ : opOf i = op ∧ m.frame = k ∧ m.step = st := by simpa [hq] using hq'
      cases hr with
      | stays => exact .inFlight m ms hms hq hrq ht
      | checks j hj => exact absurd hj hcall.1
      | responds j hj => exact absurd hj hcall.2
      | goesOn j n ns hrq' hns =>
        obtain rfl : i = j := Option.some.inj (hrq.symm.trans hrq')
        rw [planOf_steps i t s, stepsFrom_of_suffix (planOf_places_nodup i s) hms] at hns
        rw [← hns]
        exact conclude_follows hrest _

theorem goOn_follows {s t : State} {i : Instr} (h : s.Follows i t) (es : List (List Answer)) :
    s.Follows i (t.goOn es) := by
  induction es generalizing t with
  | nil => exact h
  | cons e es ih =>
    rw [State.goOn]
    split
    · exact h
    · next hq =>
      have he : s.Follows i (t.setEnv e) := by
        cases h with
        | inFlight m ms hms hq hrq ht => exact .inFlight m ms hms hq hrq (ht.drop (.refl _) rfl)
        | ended u r hu hq ht hr => exact .ended u r hu hq ht hr
      split
      · next hst => exact ih (step_follows he (by simp [hq]) hst)
      · exact h
      · exact h

/-- What has been shown is no more than the micro-program has steps for. -/
theorem State.Follows.counts {s t : State} {i : Instr} (h : s.Follows i t) :
    ∃ l, t.trace = s.trace ++ l ∧ (l.filter Event.isWait).length ≤ (planOf i s).steps.countP (·.act.isWait) ∧
      (l.filter Event.isCall).length ≤ (planOf i s).steps.countP (·.act.isCall) := by
  obtain ⟨ms, u, r, ⟨done, l, hsub, hl, hu⟩, ht, hr⟩ : ∃ ms u r, s.ShowsSteps i ms u ∧ t.trace = u.trace ++ r ∧
      ∀ e ∈ r, e.isCall = false ∧ e.isWait = false := by
    cases h with
    | inFlight m ms _ _ _ ht => exact ⟨_, t, [], ht, (List.append_nil _).symm, nofun⟩
    | ended u r hu _ ht hr => exact ⟨[], u, r, hu, ht, hr⟩
  have count : ∀ {p : Event → Bool} {q : Act → Bool}, (∀ {a e}, a.Shows e → p e = q a) → p (.req i) = false →
      (∀ e ∈ r, p e = false) →
      ((.req i :: (l ++ r)).filter p).length ≤ (planOf i s).steps.countP (q ·.act) := fun {p} _ hpq hreq hrest => by
    have hr : r.countP p = 0 := List.countP_eq_zero.mpr fun e he => by simp [hrest e he]
    rw [← List.countP_eq_length_filter, List.countP_cons_of_neg (by simp [hreq]), List.countP_append, hr,
      countP_of_shows hpq hl]
    exact ((List.sublist_append_left done ms).trans hsub).countP_le
  exact ⟨.req i :: (l ++ r), by rw [ht, hu, List.append_assoc, List.cons_append],
    count Act.Shows.isWait_eq rfl fun e he => (hr e he).2, count Act.Shows.isCall_eq rfl fun e he => (hr e he).1⟩

/-- Settles O22: the bounds are the numbers of steps of the micro-programs. -/
theorem operationsMakeFewCalls : Obligations.OperationsMakeFewCalls := by
  unfold Obligations.OperationsMakeFewCalls
  intro i s es
  obtain ⟨l, hl, hwaits, hcalls⟩ := (goOn_follows (runPlan_follows i s) es).counts
  refine ⟨_, l, exec_eq i s, hl, hwaits.trans ?_, hcalls.trans ?_⟩
  · cases i <;> exact Nat.le_of_ble_eq_true rfl
  · cases i <;> exact Nat.le_refl _

end Sys2Proof.Machine
end

section
/-! PROOFS. Two runs side by side whose environments decide the same: the events are the same but for what is received
and the payload of the response (spec/40_framing.md R92, spec/10_state.md R12). -/

namespace Sys2Proof.Machine

/-- From `s` to `t` and from `s'` to `t'` the events are the same but for received bytes and response payloads. -/
def ShownAlike (s s' t t' : State) : Prop :=
  ∃ l l', t.trace = s.trace ++ l ∧ t'.trace = s'.trace ++ l' ∧ l.map Event.shape = l'.map Event.shape

section
variable {s s' t t' u u' : State}

theorem ShownAlike.refl (s s' : State) : ShownAlike s s' s s' :=
  ⟨[], [], (List.append_nil _).symm, (List.append_nil _).symm, rfl⟩

theorem ShownAlike.congr (h : ShownAlike s s' t t') (hu : u.trace = t.trace) (hu' : u'.trace = t'.trace) :
    ShownAlike s s' u u' := by
  obtain ⟨l, l', ht, ht', hl⟩ := h
  exact ⟨l, l', hu.trans ht, hu'.trans ht', hl⟩

theorem ShownAlike.event (h : ShownAlike s s' t t') {e e' : Event} (hu : u.trace = t.trace ++ [e])
    (hu' : u'.trace = t'.trace ++ [e']) (he : e.shape = e'.shape) : ShownAlike s s' u u' := by
  obtain ⟨l, l', ht, ht', hl⟩ := h
  exact ⟨l ++ [e], l' ++ [e'], by rw [hu, ht, List.append_assoc], by rw [hu', ht', List.append_assoc],
    by rw [List.map_append, List.map_append, hl, List.map_singleton, List.map_singleton, he]⟩

end

/-- Two states of runs begun at `s` and `s'` that agree in what the sequencer goes by, FAIL and the delay counter left
out. -/
structure Twins (s s' t t' : State) : Prop where
  shown  : ShownAlike s s' t t'
  handle : t.handle = t'.handle
  tickNs : t.params.tickNs = t'.params.tickNs
  env    : SameDecisions t.env t'.env
  seq    : t.seq = t'.seq

/-- Twins with the rest `ms` of the micro-program still to make: FAIL counts inside a frame only, the delay counter at
WAIT only. -/
structure Alike (s s' : State) (ms : List MStep) (t t' : State) : Prop extends Twins s s' t t' where
  fail : frameOpen ms = true → t.work.fail = t'.work.fail
  dly  : ∀ op, t.seq = .busy op 0 .wait → t.work.dly = t'.work.dly

/-- The two runs go on the same way after a step. -/
inductive Turn.Alike (s s' : State) (ms : List MStep) : Turn → Turn → Prop where
  | next {t t' : State} (h : Machine.Alike s s' ms t t') : Turn.Alike s s' ms (.next t) (.next t')
  | abort {t t' : State} (h : ShownAlike s s' t t') : Turn.Alike s s' ms (.abort t) (.abort t')
  | hold {t t' : State} (h : ShownAlike s s' t t') : Turn.Alike s s' ms (.hold t) (.hold t')

/-- The two runs end the same way. -/
inductive Run.Alike (s s' : State) : Run → Run → Prop where
  | finished {t t' : State} (h : ShownAlike s s' t t') : Run.Alike s s' (.finished t) (.finished t')
  | failed {t t' : State} (h : ShownAlike s s' t t') : Run.Alike s s' (.failed t) (.failed t')
  | held {t t' : State} (h : ShownAlike s s' t t') : Run.Alike s s' (.held t) (.held t')

/-- Two answers the framer cannot tell apart but by received bytes. -/
inductive Answer.Alike : Answer → Answer → Prop where
  | reply (ok : Bool) (rx rx' : List Byte) : Answer.Alike (.reply ok rx) (.reply ok rx')
  | silent : Answer.Alike .silent .silent
  | tick : Answer.Alike .tick .tick
  | reset : Answer.Alike .reset .reset

theorem Answer.alike_of_decision : ∀ {a a' : Answer}, a.decision = a'.decision → a.Alike a'
  | .reply ok rx, .reply _ rx', rfl => .reply ok rx rx'
  | .silent, .silent, rfl => .silent
  | .tick, .tick, rfl => .tick
  | .reset, .reset, rfl => .reset

/-! A step as a question to the environment and what is done with its answer. -/

/-- The state in which a step asks the environment. -/
def MStep.asking (m : MStep) (op : Op) (s : State) : State :=
  match m.act with
  | .csHigh0 | .csHigh => s.setSeq (.busy op m.frame m.step)
  | .csLow _ => (s.setSeq (.busy op m.frame m.step)).setFail false
  | .xfer x => (s.setSeq (.busy op m.frame m.step)).setWork { s.work with txbuf := x.tx }
  | .wait us => s.atWait op us

/-- What a step does when it is answered, FAIL having been `failed` before it. -/
def Act.answered (a : Act) (failed ok : Bool) (rx : List Byte) (u : State) : Turn :=
  match a with
  | .csHigh0 => if ok then .next (u.pinWrite .high ok []) else .abort (u.pinWrite .high ok [])
  | .csLow frame => .next ((u.pinWrite .low ok frame).setFail (!ok))
  | .xfer x => .next (u.transfer x ok rx)
  | .csHigh =>
    if failed || !ok then .abort ((u.pinWrite .high ok []).setFail true) else .next (u.pinWrite .high ok [])
  | .wait us => .next (u.endWait us)

/-- What a tick does at a step: it matters at WAIT only. -/
def Act.ticked (a : Act) (u : State) : Turn :=
  match a with
  | .csHigh0 | .csLow _ | .xfer _ | .csHigh => .hold u
  | .wait us => if u.work.dly ≤ 1 then .next (u.endWait us) else .hold (u.setDly (u.work.dly - 1))

theorem perform_skipped (op : Op) {m : MStep} {s : State} {x : Xfer} (ha : m.act = .xfer x) (hf : s.work.fail = true) :
    perform op m s = .next s := by
  obtain ⟨k, st, act⟩ := m
  obtain rfl : act = .xfer x := ha
  exact perform_xfer_skipped s op k st x hf

/-- A step that is not skipped asks the environment once. -/
theorem perform_eq_turn (op : Op) {m : MStep} {s : State} (h : ∀ x, m.act = .xfer x → s.work.fail = false) :
    perform op m s = (m.asking op s).ask.turn (m.asking op s) (m.act.answered s.work.fail) m.act.ticked := by
  obtain ⟨k, st, act⟩ := m
  cases act with
  | xfer x =>
    simp only [perform, h x rfl, Bool.false_eq_true, if_false]
    rfl
  | csHigh0 | csLow | csHigh | wait => rfl

/-! One step of the two runs. -/

section
variable {s s' t t' : State} {ms : List MStep}

theorem Twins.setEnv (h : Twins s s' t t') {e e' : List Answer} (he : SameDecisions e e') :
    Twins s s' (t.setEnv e) (t'.setEnv e') :=
  ⟨h.shown.congr rfl rfl, h.handle, h.tickNs, he, h.seq⟩

theorem Twins.setSeq (h : Twins s s' t t') (q : Seq) : Twins s s' (t.setSeq q) (t'.setSeq q) :=
  ⟨h.shown.congr rfl rfl, h.handle, h.tickNs, h.env, rfl⟩

theorem Twins.setWork (h : Twins s s' t t') (w w' : Work) : Twins s s' (t.setWork w) (t'.setWork w') :=
  ⟨h.shown.congr rfl rfl, h.handle, h.tickNs, h.env, h.seq⟩

theorem Twins.pinWrite (h : Twins s s' t t') (l : Level) (ok : Bool) (fr : List Byte) :
    Twins s s' (t.pinWrite l ok fr) (t'.pinWrite l ok fr) := by
  have hu := t.pinWrite_frame l ok fr
  have hu' := t'.pinWrite_frame l ok fr
  exact ⟨h.shown.event hu.trace hu'.trace (by rw [h.handle]), by rw [hu.handle, hu'.handle, h.handle],
    by rw [hu.params, hu'.params, h.tickNs], by rw [hu.env, hu'.env]; exact h.env, by rw [hu.seq, hu'.seq, h.seq]⟩

theorem Twins.transfer (h : Twins s s' t t') (x : Xfer) (ok : Bool) (rx rx' : List Byte) :
    Twins s s' (t.transfer x ok rx) (t'.transfer x ok rx') := by
  have hu := t.transfer_frame x ok rx
  have hu' := t'.transfer_frame x ok rx'
  exact ⟨h.shown.event hu.trace hu'.trace rfl, by rw [hu.handle, hu'.handle, h.handle],
    by rw [hu.params, hu'.params, h.tickNs], by rw [hu.env, hu'.env]; exact h.env, by rw [hu.seq, hu'.seq, h.seq]⟩

theorem Twins.endWait (h : Twins s s' t t') (us : Nat) : Twins s s' (t.endWait us) (t'.endWait us) :=
  ⟨h.shown.event (t.endWait_trace us) (t'.endWait_trace us) rfl, h.handle, h.tickNs, h.env, h.seq⟩

theorem Twins.asking (h : Twins s s' t t') (op : Op) (m : MStep) : Twins s s' (m.asking op t) (m.asking op t') := by
  obtain ⟨k, st, act⟩ := m
  cases act with
  | csHigh0 | csHigh => exact h.setSeq _
  | csLow | xfer | wait => exact (h.setSeq _).setWork _ _

/-- A wait that ends has counted down to zero, and stands in no frame. -/
theorem Twins.endWait_alike (h : Twins s s' t t') (hclosed : frameOpen ms = false) (us : Nat) :
    Alike s s' ms (t.endWait us) (t'.endWait us) :=
  ⟨h.endWait us, fun ho => absurd ho (by simp [hclosed]), fun _ _ => rfl⟩

/-- To know that two runs go on the same way after a call, see what they do when it is answered with the same success
bit, and at a tick; where the call stands open or the reset event strikes nothing is shown. -/
theorem Twins.ask_turn (h : Twins s s' t t') {answered answered' : Bool → List Byte → State → Turn}
    {ticked ticked' : State → Turn}
    (ht : ∀ e e', Twins s s' (t.setEnv e) (t'.setEnv e') →
      Turn.Alike s s' ms (ticked (t.setEnv e)) (ticked' (t'.setEnv e')))
    (ha : ∀ ok rx rx' e e', Twins s s' (t.setEnv e) (t'.setEnv e') →
      Turn.Alike s s' ms (answered ok rx (t.setEnv e)) (answered' ok rx' (t'.setEnv e'))) :
    Turn.Alike s s' ms (t.ask.turn t answered ticked) (t'.ask.turn t' answered' ticked') := by
  have he := h.env
  rcases henv : t.env with _ | ⟨a, e⟩ <;> rcases henv' : t'.env with _ | ⟨a', e'⟩ <;> rw [henv, henv'] at he
  · simp only [State.ask, henv, henv']
    exact ha true [] [] t.env t'.env h
  · cases he
  · cases he
  · obtain ⟨hdec, hrest⟩ := List.cons.inj he
    simp only [State.ask, henv, henv']
    cases Answer.alike_of_decision hdec with
    | reply ok rx rx' => exact ha ok rx rx' e e' (h.setEnv hrest)
    | silent => exact .hold h.shown
    | tick => exact ht e e' (h.setEnv hrest)
    | reset => exact .hold (h.shown.congr rfl rfl)

/-- A wait begins, or goes on, with the same count in both runs. -/
theorem Alike.atWait_dly (h : Alike s s' ms t t') (op : Op) (us : Nat) :
    (t.atWait op us).work.dly = (t'.atWait op us).work.dly := by
  show (if t.seq = .busy op 0 .wait then t.work.dly else delayTicks t.params.tickNs us) =
    if t'.seq = .busy op 0 .wait then t'.work.dly else delayTicks t'.params.tickNs us
  rw [← h.seq, ← h.tickNs]
  split
  · next hq => exact h.dly op hq
  · rfl

/-- A tick at WAIT, the counts being the same. -/
theorem Twins.ticked_wait (h : Twins s s' t t') (hdly : t.work.dly = t'.work.dly) (hclosed : frameOpen ms = false)
    (us : Nat) : Turn.Alike s s' ms ((Act.wait us).ticked t) ((Act.wait us).ticked t') := by
  simp only [Act.ticked, ← hdly]
  by_cases hlast : t.work.dly ≤ 1
  · rw [if_pos hlast, if_pos hlast]
    exact .next (h.endWait_alike hclosed us)
  · rw [if_neg hlast, if_neg hlast]
    exact .hold (h.shown.congr rfl rfl)

theorem Seq.busy_ne_wait {op op' : Op} {k k' : Fin 3} {st : Step} (hst : st ≠ .wait) :
    Seq.busy op k st ≠ .busy op' k' .wait := fun h => by
  injection h with _ _ h
  exact hst h

/-- A call has been answered: FAIL as the rest of the micro-program asks, and no wait counting. -/
theorem Twins.next_of_call (h : Twins s s' t t') {op : Op} {k : Fin 3} {st : Step} (hq : t.seq = .busy op k st)
    (hst : st ≠ .wait) (hfail : frameOpen ms = true → t.work.fail = t'.work.fail) :
    Turn.Alike s s' ms (.next t) (.next t') :=
  .next ⟨h, hfail, fun _ hw => absurd (hq.symm.trans hw) (Seq.busy_ne_wait hst)⟩

end

/-- A step whose call is answered with the same success bit, in both runs. -/
theorem answered_alike {s s' t t' : State} {op : Op} {m : MStep} {ms : List MStep} (hm : m.WellPlaced)
    (hopen : m.act.leavesOpen = frameOpen ms) (h : Alike s s' (m :: ms) t t') (ok : Bool) (rx rx' : List Byte)
    {e e' : List Answer} (hu : Twins s s' ((m.asking op t).setEnv e) ((m.asking op t').setEnv e')) :
    Turn.Alike s s' ms (m.act.answered t.work.fail ok rx ((m.asking op t).setEnv e))
      (m.act.answered t'.work.fail ok rx' ((m.asking op t').setEnv e')) := by
  obtain ⟨k, st, act⟩ := m
  cases act with
  | csHigh0 =>
    obtain rfl : st = .csHigh0 := hm
    have hmade := hu.pinWrite .high ok []
    simp only [Act.answered]
    split
    · exact hmade.next_of_call (State.pinWrite_frame _ _ _ _).seq nofun fun ho => by cases hopen.trans ho
    · exact .abort hmade.shown
  | csLow fr =>
    obtain rfl : st = .csLow := hm
    exact ((hu.pinWrite .low ok fr).setWork _ _).next_of_call (State.pinWrite_frame _ _ _ _).seq nofun fun _ => rfl
  | xfer x =>
    have hst : st ≠ .wait := by rcases (hm : st = .xfer0 ∨ st = .xfer1) with rfl | rfl <;> nofun
    refine (hu.transfer x ok rx rx').next_of_call (State.transfer_frame _ x ok rx).seq hst fun _ => ?_
    rw [(State.transfer_frame _ x ok rx).work, (State.transfer_frame _ x ok rx').work]
  | csHigh =>
    obtain rfl : st = .csHigh := hm
    have hmade := hu.pinWrite .high ok []
    have hfail : t.work.fail = t'.work.fail := h.fail rfl
    simp only [Act.answered, hfail]
    split
    · exact .abort (hmade.shown.congr rfl rfl)
    · exact hmade.next_of_call (State.pinWrite_frame _ _ _ _).seq nofun fun ho => by cases hopen.trans ho
  | wait us => exact .next (hu.endWait_alike hopen.symm us)

/-- A tick at a step, in both runs: it ends a wait in both or in neither. -/
theorem ticked_alike {s s' t t' : State} {op : Op} {m : MStep} {ms : List MStep}
    (hopen : m.act.leavesOpen = frameOpen ms) (h : Alike s s' (m :: ms) t t')
    {e e' : List Answer} (hu : Twins s s' ((m.asking op t).setEnv e) ((m.asking op t').setEnv e')) :
    Turn.Alike s s' ms (m.act.ticked ((m.asking op t).setEnv e)) (m.act.ticked ((m.asking op t').setEnv e')) := by
  obtain ⟨k, st, act⟩ := m
  cases act with
  | csHigh0 | csLow | xfer | csHigh => exact .hold hu.shown
  | wait us => exact hu.ticked_wait (h.atWait_dly op us) hopen.symm us

/-- A step of the micro-program, in both runs. -/
theorem perform_alike {s s' t t' : State} {op : Op} {m : MStep} {ms : List MStep} (hm : m.WellPlaced)
    (hopen : m.act.leavesOpen = frameOpen ms) (h : Alike s s' (m :: ms) t t') :
    Turn.Alike s s' ms (perform op m t) (perform op m t') := by
  by_cases hskip : (∃ x, m.act = .xfer x) ∧ t.work.fail = true
  · obtain ⟨⟨x, hx⟩, hf⟩ := hskip
    have hfail : t.work.fail = t'.work.fail := h.fail (by rw [frameOpen, hx]; rfl)
    rw [perform_skipped op hx hf, perform_skipped op hx (hfail ▸ hf)]
    exact .next ⟨h.toTwins, fun _ => hfail, h.dly⟩
  · have hmade : ∀ x, m.act = .xfer x → t.work.fail = false := fun x hx =>
      Bool.eq_false_of_not_eq_true fun hf => hskip ⟨⟨x, hx⟩, hf⟩
    have hmade' : ∀ x, m.act = .xfer x → t'.work.fail = false := fun x hx =>
      h.fail (by rw [frameOpen, hx]; rfl) ▸ hmade x hx
    rw [perform_eq_turn op hmade, perform_eq_turn op hmade']
    exact (h.toTwins.asking op m).ask_turn (fun _ _ hu => ticked_alike hopen h hu)
      fun ok rx rx' _ _ hu => answered_alike hm hopen h ok rx rx' hu

/-! From the request to the response. -/

theorem run_alike {s s' : State} (op : Op) {ms : List MStep} (hw : WellPlanned ms) {t t' : State}
    (h : Alike s s' ms t t') : Run.Alike s s' (run op ms t) (run op ms t') := by
  induction ms generalizing t t' with
  | nil => exact .finished h.shown
  | cons m ms ih =>
    obtain ⟨hm, hopen, hms⟩ := hw
    have hturn := perform_alike (op := op) hm hopen h
    rw [run, run]
    generalize perform op m t = r, perform op m t' = r' at hturn
    cases hturn with
    | next hnext => exact ih hms hnext
    | abort hshown => exact .failed hshown
    | hold hshown => exact .held hshown

theorem conclude_alike {s s' : State} {r r' : Run} (h : Run.Alike s s' r r') (op : Op)
    (result result' : State → Result) : ShownAlike s s' (conclude op result r) (conclude op result' r') := by
  cases h with
  | finished h =>
    rw [conclude, conclude, State.respondOk_eq, State.respondOk_eq]
    exact h.event (State.respond_trace _ _ _ _ _) (State.respond_trace _ _ _ _ _) rfl
  | failed h => exact h.event (State.raiseCapabilityFailure_trace _ op) (State.raiseCapabilityFailure_trace _ op) rfl
  | held h => exact h

/-- The argument check goes by the handle and MAX_XFER_LEN (spec/40_framing.md R94, spec/42_data_ops.md R112). -/
theorem planOf_valid_congr (i : Instr) {s s' : State} (hh : s.handle = s'.handle)
    (hm : s.params.maxXferLen = s'.params.maxXferLen) : (planOf i s).valid = (planOf i s').valid := by
  cases i <;>
    simp only [planOf, planCmdWren, planCmdWrdi, planCmdRdsr, planCmdWrsr, planCmdRead, planCmdWrite, planCmdSleep,
      planCmdWake, planFrame, payloadOk, planInit, planWriteEnable, planWriteDisable, planRead, planWrite, checkData,
      planSleep, planWake, planReadStatusRegister, planWriteStatusRegister, planIsWriteEnabled, planIsWriteProtected,
      planIsBlockProtected, planQuery, checkHandle, hh, hm]

theorem State.begun_seq (s : State) (i : Instr) : (s.begun i).seq = .busy (opOf i) 0 .validate := by
  cases i <;> rfl

/-- `init` stores what it is given, the others leave the handle. -/
theorem State.begun_handle_congr (i : Instr) {s s' : State} (hh : s.handle = s'.handle) :
    (s.begun i).handle = (s'.begun i).handle := by
  by_cases hi : opOf i = .init
  · obtain ⟨h, gpio, spi, pin, rfl⟩ := eq_init_of_opOf hi
    rfl
  · exact ((planOf_prepare_handle hi s (s.accept i)).trans hh).trans (planOf_prepare_handle hi s' (s'.accept i)).symm

/-- A micro-program begins outside a frame and not at a wait. -/
theorem begun_alike {s s' : State} (i : Instr) (hh : s.handle = s'.handle) (hn : s.params.tickNs = s'.params.tickNs)
    (he : SameDecisions s.env s'.env) : Alike s s' (planOf i s).steps (s.begun i) (s'.begun i) := by
  have hp := s.begun_prepared i
  have hp' := s'.begun_prepared i
  refine ⟨⟨(ShownAlike.refl s s').event hp.trace hp'.trace rfl, s.begun_handle_congr i hh, ?_, ?_, ?_⟩, ?_, ?_⟩
  · rw [hp.params, hp'.params]
    exact hn
  · rw [hp.env, hp'.env]
    exact he
  · rw [s.begun_seq, s'.begun_seq]
  · rw [planOf_frameOpen]
    exact nofun
  · rw [s.begun_seq]
    exact fun _ h => absurd h (Seq.busy_ne_wait nofun)

/-- Settles O24: the two checks agree, and along the micro-program the two runs agree in all that the sequencer goes
by. -/
theorem eventsDependOnSuccessBitsOnly : Obligations.EventsDependOnSuccessBitsOnly := by
  unfold Obligations.EventsDependOnSuccessBitsOnly
  intro i s s' hh hm hn he
  have hvalid := planOf_valid_congr i hh hm
  cases hv : (planOf i s).valid with
  | false =>
    obtain ⟨htrace, -⟩ := runPlan_rejected hv
    obtain ⟨htrace', -⟩ := runPlan_rejected (hvalid ▸ hv)
    exact ⟨_, _, _, _, exec_eq i s, exec_eq i s', htrace, htrace', rfl⟩
  | true =>
    have hrun := run_alike (opOf i) (wellPlanned_planOf i s) (begun_alike i hh hn he)
    rw [planOf_steps i s s'] at hrun
    obtain ⟨l, l', hl, hl', hshape⟩ := conclude_alike hrun (opOf i) (planOf i s).result (planOf i s').result
    refine ⟨_, _, l, l', exec_valid hv, exec_valid (hvalid ▸ hv), ?_, hl', hshape⟩
    rw [planOf_steps i s s']
    exact hl

end Sys2Proof.Machine
end

section
/-! PROOFS. `init`, `write_enable` and `write_disable` when every call succeeds (spec/41_init_wel_ops.md R100 to R102):
one frame each, `init`'s after a pin write HIGH on the pin it has just stored. -/

namespace Sys2Proof.Machine

theorem State.CallsSucceed.deselected {s : State} (hs : s.CallsSucceed) (op : Op) (k : Fin 3) (st : Step) :
    (s.deselected op k st).CallsSucceed := by
  obtain ⟨-, -, -, -, -, henv, -⟩ := s.deselected_frame op k st
  exact hs.of_subset fun a ha => List.mem_of_mem_tail (henv ▸ ha)

/-- Once the leading pin write HIGH has succeeded the micro-program goes on (R100). -/
theorem run_csHigh0 {s : State} (hs : s.CallsSucceed) (op : Op) (k : Fin 3) (st : Step) (ms : List MStep) :
    run op (⟨k, st, .csHigh0⟩ :: ms) s = run op ms (s.deselected op k st) := by
  rw [run, perform_csHigh0 hs.answered, if_pos hs.headOk]

/-- From `init`'s pin write HIGH and a frame all of whose calls succeeded to the response OK. -/
theorem FrameDone.init_completes {s t : State} {evs : List Event} {pin : Pin} (hs : s.CallsSucceed)
    (h : FrameDone ((s.begun (.init true true true pin)).deselected .init 0 .csHigh0) t evs) :
    Completes (.init true true true pin) s (t.completed (.init true true true pin) .done) ⟨true, true, pin⟩
      (.pin pin .high true :: frameEvents pin evs) false none none := by
  set i : Instr := .init true true true pin
  obtain ⟨hhandle, -, hparams, hhost, -, -, -, -, -, hhigh⟩ := (s.begun i).deselected_frame .init 0 .csHigh0
  have hb := s.begun_prepared i
  have hbound : (s.begun i).handle = ⟨true, true, pin⟩ := rfl
  rw [hbound] at hhandle
  refine ⟨?_, ⟨_, rfl, rfl, rfl, nofun, nofun⟩, h.handle.trans hhandle, rfl, (h.params.trans hparams).trans hb.params,
    (h.host.trans hhost).trans hb.host, h.level⟩
  have htrace : ((s.begun i).deselected .init 0 .csHigh0).trace = s.trace ++ [.req i, .pin pin .high true] := by
    rw [hhigh, (hs.begun i).headOk, hbound, hb.trace, State.accept_trace, List.append_assoc]
    rfl
  calc (t.completed i .done).trace = t.trace ++ [.rsp .ok false none none] := rfl
    _ = s.trace ++ (.req i :: (.pin pin .high true :: frameEvents pin evs) ++ [.rsp .ok false none none]) := by
      rw [h.trace, hhandle, htrace]
      simp

/-- Settles O29: the pin write HIGH, on the pin just stored, and then the Write-Disable frame. -/
theorem initCompletes : Obligations.InitCompletes := by
  unfold Obligations.InitCompletes
  intro s pin hs
  have hs' := hs.begun (.init true true true pin)
  obtain ⟨t, rx, hrun, -, hdone, -⟩ := run_frame_one (hs'.deselected .init 0 .csHigh0) .init 0 ⟨[Config.opcWrdi], false⟩
  have hinit := (run_csHigh0 hs' .init 0 .csHigh0 (frameSteps 0 cmdWRDI)).trans hrun
  exact ⟨_, exec_finished (i := .init true true true pin) rfl hinit, hdone.init_completes hs⟩

/-- Settles O30: each is one frame of one transfer. -/
theorem writeEnableAndDisableComplete : Obligations.WriteEnableAndDisableComplete := by
  unfold Obligations.WriteEnableAndDisableComplete
  intro s hs hb
  exact ⟨exec_sent (i := .writeEnable true) hs nofun hb rfl rfl,
    exec_sent (i := .writeDisable true) hs nofun hb rfl rfl⟩

end Sys2Proof.Machine
end

section
/-! PROOFS. `read` and `write` when every call succeeds, and the latch after `write` (spec/42_data_ops.md R110 to R112,
spec/40_framing.md R96). -/

namespace Sys2Proof.Machine

/-! Frames one after the other. -/

/-- A part of a micro-program all of whose calls succeeded, chip-select HIGH at its end: the events it adds and what it
leaves alone. -/
structure CallsDone (s t : State) (evs : List Event) : Prop where
  trace  : t.trace = s.trace ++ evs
  handle : t.handle = s.handle
  params : t.params = s.params
  host   : t.host = s.host
  level  : t.chip.csLevel = .high

theorem FrameDone.callsDone {s t : State} {evs : List Event} (h : FrameDone s t evs) :
    CallsDone s t (frameEvents s.handle.csPin evs) :=
  ⟨h.trace, h.handle, h.params, h.host, h.level⟩

theorem CallsDone.trans {s t u : State} {evs evs' : List Event} (h : CallsDone s t evs) (k : CallsDone t u evs') :
    CallsDone s u (evs ++ evs') :=
  ⟨by rw [k.trace, h.trace, List.append_assoc], k.handle.trans h.handle, k.params.trans h.params,
    k.host.trans h.host, k.level⟩

/-- From a micro-program all of whose calls succeeded to the response OK, where no result is named. -/
theorem CallsDone.completes {i : Instr} {s t : State} {evs : List Event} (h : CallsDone (s.begun i) t evs)
    (hi : opOf i ≠ .init) : Completes i s (t.completed i .done) s.handle evs false none none := by
  have hb := s.begun_prepared i
  refine ⟨?_, ⟨_, rfl, rfl, rfl, nofun, nofun⟩, h.handle.trans (planOf_prepare_handle hi s _), rfl,
    h.params.trans hb.params, h.host.trans hb.host, h.level⟩
  calc (t.completed i .done).trace = t.trace ++ [.rsp .ok false none none] := rfl
    _ = s.trace ++ (.req i :: evs ++ [.rsp .ok false none none]) := by
      rw [h.trace, hb.trace, State.accept_trace]
      simp

theorem run_append_of_finished {op : Op} {ms : List MStep} {s t : State} (h : run op ms s = .finished t)
    (ns : List MStep) : run op (ms ++ ns) s = run op ns t := by
  rw [run_append, h]

/-- One transfer without receive, as a frame. -/
theorem run_frame_sent {s : State} (hs : s.CallsSucceed) (op : Op) (k : Fin 3) (tx : List Byte) :
    ∃ t, run op (frameSteps k [⟨tx, false⟩]) s = .finished t ∧ t.CallsSucceed ∧
      CallsDone s t (frameEvents s.handle.csPin [sent tx]) := by
  obtain ⟨t, _, hrun, -, hdone, -⟩ := run_frame_one hs op k ⟨tx, false⟩
  exact ⟨t, hrun, hs.of_subset hdone.env, hdone.callsDone⟩

/-- A frame of one transfer without receive in its bracket: three frames (R96). -/
theorem run_bracketed_sent {s : State} (hs : s.CallsSucceed) (op : Op) (tx : List Byte) :
    ∃ t, run op (bracketed [⟨tx, false⟩]) s = .finished t ∧
      CallsDone s t (frameEvents s.handle.csPin [sent [0x06#8]] ++ frameEvents s.handle.csPin [sent tx] ++
        frameEvents s.handle.csPin [sent [0x04#8]]) := by
  obtain ⟨t, hwren, ht, hst⟩ := run_frame_sent hs op 0 [Config.opcWren]
  obtain ⟨u, hframe, hu, htu⟩ := run_frame_sent ht op 1 tx
  obtain ⟨v, hwrdi, -, huv⟩ := run_frame_sent hu op 2 [Config.opcWrdi]
  have hsu := hst.trans htu
  rw [hst.handle] at hsu
  rw [hsu.handle] at huv
  refine ⟨v, ?_, hsu.trans huv⟩
  rw [bracketed, List.append_assoc]
  exact (run_append_of_finished hwren _).trans ((run_append_of_finished hframe _).trans hwrdi)

/-- An instruction whose frame, of one transfer without receive, stands in its bracket. -/
theorem exec_bracketed_sent {i : Instr} {s : State} (hs : s.CallsSucceed) (hi : opOf i ≠ .init)
    (hv : (planOf i s).valid = true) {tx : List Byte} (hsteps : (planOf i s).steps = bracketed [⟨tx, false⟩])
    (hresult : (planOf i s).result = noResult) :
    ∃ t, exec i s = .next t ∧
      Completes i s t s.handle (frameEvents s.handle.csPin [sent [0x06#8]] ++ frameEvents s.handle.csPin [sent tx] ++
        frameEvents s.handle.csPin [sent [0x04#8]]) false none none := by
  obtain ⟨t, hrun, hdone⟩ := run_bracketed_sent (hs.begun i) (opOf i) tx
  have hhandle : (s.begun i).handle = s.handle := planOf_prepare_handle hi s _
  rw [hhandle] at hdone
  refine ⟨_, exec_finished hv (hsteps ▸ hrun), ?_⟩
  rw [hresult]
  exact hdone.completes hi

/-! The two data operations. -/

/-- The check of `read` and `write` on a present handle and buffer (R112). -/
theorem dataChecks_pass {s : State} {addr len : Field32} (hb : s.handle.bound = true)
    (hrange : rangeOK s.params.maxXferLen addr len = true) :
    (checkHandle true s && checkData true addr len s) = true := by
  simp [checkHandle, checkData, hb, hrange]

/-- Settles O31: `read` is one READ frame, whose transfer receives as many bytes as it sends. -/
theorem readCompletes : Obligations.ReadCompletes := by
  unfold Obligations.ReadCompletes
  intro s addr len hs hb hrange
  obtain ⟨t, rx, hex, hlen, hcompletes⟩ := exec_dataFrame (i := .read true true addr len) hs nofun
    (dataChecks_pass hb hrange) rfl rfl
  have hlen' : rx.length = 4 + len.toNat := hlen.trans (by simp [addrBytes]; omega)
  exact ⟨t, rx, hex, hlen', hcompletes⟩

/-- Settles O32: `write` is the WRITE frame in its bracket. -/
theorem writeCompletes : Obligations.WriteCompletes := by
  unfold Obligations.WriteCompletes
  intro s addr len data hs hb hrange _
  exact exec_bracketed_sent (i := .write true true addr len data) hs nofun (dataChecks_pass hb hrange) rfl rfl

/-- Settles O46: `write` leaves the chip ready and its latch clear, its last frame not a READ, and the query answers
with the latch. -/
theorem writeEndsWithTheLatchCleared : Obligations.WriteEndsWithTheLatchCleared := by
  unfold Obligations.WriteEndsWithTheLatchCleared
  intro s addr len data he hr hb hrange hlen
  obtain ⟨t, hex, -, hchip, hhandle, -, henv⟩ := exec_write_chip he hr hb hrange hlen
  have hready : t.chip.Ready := by rw [hchip]; exact hr
  have hread : t.chip.afterRead = false := by rw [hchip]
  have hlatch : t.chip.sr.getLsbD 1 = false := by rw [hchip, ← srWelBit_eq, srWelBit_setWel]
  obtain ⟨-, ⟨u, r, hquery, hresp, hok, hvalue, -⟩, -, -⟩ :=
    statusReadReturnsTheRegister t (fun a ha => he a (henv a ha)) hready hread (hhandle ▸ hb)
  exact ⟨t, u, r, hex, hquery, hresp, hok, hvalue.trans hlatch⟩

end Sys2Proof.Machine
end

section
/-! PROOFS. `sleep` and `wake` (spec/43_power_ops.md R120 to R122): one frame, and the wait after it only when the frame
succeeded. -/

namespace Sys2Proof.Machine

/-! When every call succeeds. -/

/-- A wait moves no pin. -/
theorem CallsDone.waited {s t : State} {evs : List Event} (h : CallsDone s t evs) (op : Op) (us : Nat) :
    CallsDone s (t.waited op us) (evs ++ [.wait us]) :=
  h.trans ⟨rfl, rfl, rfl, rfl, h.level⟩

/-- A frame of one transfer without receive, and the wait after it. -/
theorem run_sent_wait {s : State} (hs : s.CallsSucceed) (op : Op) (k : Fin 3) (tx : List Byte) (us : Nat) :
    ∃ t, run op (frameSteps k [⟨tx, false⟩] ++ [waitStep us]) s = .finished t ∧ (∀ a ∈ t.env, a ∈ s.env) ∧
      CallsDone s t (frameEvents s.handle.csPin [sent tx] ++ [.wait us]) := by
  obtain ⟨t, _, hrun, -, hdone, -⟩ := run_frame_one hs op k ⟨tx, false⟩
  have ht : t.Answered := (hs.of_subset hdone.env).answered
  refine ⟨t.waited op us, ?_, fun a ha => hdone.env a (List.mem_of_mem_tail ha), hdone.callsDone.waited op us⟩
  rw [run_append_of_finished hrun, run, perform_wait ht]
  rfl

/-- An instruction of one frame, of one transfer without receive, and a wait: it completes, and only takes answers off
the script. -/
theorem exec_sent_wait {i : Instr} {s : State} (hs : s.CallsSucceed) (hi : opOf i ≠ .init)
    (hv : (planOf i s).valid = true) {tx : List Byte} {us : Nat}
    (hsteps : (planOf i s).steps = frameSteps 0 [⟨tx, false⟩] ++ [waitStep us])
    (hresult : (planOf i s).result = noResult) :
    ∃ t, exec i s = .next t ∧ (∀ a ∈ t.env, a ∈ s.env) ∧
      Completes i s t s.handle (frameEvents s.handle.csPin [sent tx] ++ [.wait us]) false none none := by
  obtain ⟨t, hrun, henv, hdone⟩ := run_sent_wait (hs.begun i) (opOf i) 0 tx us
  have hhandle : (s.begun i).handle = s.handle := planOf_prepare_handle hi s _
  rw [hhandle] at hdone
  refine ⟨_, exec_finished hv (hsteps ▸ hrun), ?_⟩
  rw [hresult]
  exact ⟨fun a ha => s.begun_env i ▸ henv a ha, hdone.completes hi⟩

section
variable {s : State}

theorem exec_sleep_completes (hs : s.CallsSucceed) (hb : s.handle.bound = true) :
    ∃ t, exec (.sleep true) s = .next t ∧ (∀ a ∈ t.env, a ∈ s.env) ∧
      Completes (.sleep true) s t s.handle (frameEvents s.handle.csPin [sent [0xB9#8]] ++ [.wait 100]) false none none :=
  exec_sent_wait (i := .sleep true) hs nofun hb rfl rfl

theorem exec_wake_completes (hs : s.CallsSucceed) (hb : s.handle.bound = true) :
    ∃ t, exec (.wake true) s = .next t ∧ (∀ a ∈ t.env, a ∈ s.env) ∧
      Completes (.wake true) s t s.handle (frameEvents s.handle.csPin [sent [0xAB#8]] ++ [.wait 400]) false none none :=
  exec_sent_wait (i := .wake true) hs nofun hb rfl rfl

end

/-- Settles O33: each is one frame of one transfer and the wait after it. -/
theorem sleepAndWakeComplete : Obligations.SleepAndWakeComplete := by
  unfold Obligations.SleepAndWakeComplete
  intro s hs hb
  obtain ⟨t, hsleep, -, ht⟩ := exec_sleep_completes hs hb
  obtain ⟨u, hwake, -, hu⟩ := exec_wake_completes hs hb
  exact ⟨⟨t, hsleep, ht⟩, ⟨u, hwake, hu⟩⟩

/-- Settles O48: `sleep` leaves the chip asleep with no delay running, which is where `wake` makes it ready. -/
theorem sleepThenWakeSucceedAsAPair : Obligations.SleepThenWakeSucceedAsAPair := by
  unfold Obligations.SleepThenWakeSucceedAsAPair
  intro s he hr hb
  have ⟨_, hrec, hpend, _, hlost⟩ := hr
  obtain ⟨t, hsleep, henv, htrace, -, hhandle, -⟩ := exec_sleep_completes he.callsSucceed hb
  have ht : t.EnvOk := fun a ha => he a (henv a ha)
  have htb : t.handle.bound = true := hhandle ▸ hb
  have hasleep : t.chip = { s.chip with mode := .asleep, afterRead := false, csLevel := .high, mustWake := true } := by
    obtain ⟨t', hsleep', hchip⟩ := (sleepAndWakeMoveThePowerMode s he hb hpend hlost).1 hr
    obtain rfl : t = t' := Host.Outcome.next.inj (hsleep.symm.trans hsleep')
    exact hchip
  have htp : t.chip.pending = none := by rw [hasleep]; exact hpend
  have htl : t.chip.lost = false := by rw [hasleep]; exact hlost
  have htr : t.chip.recovery = 0 := by rw [hasleep]; exact hrec
  obtain ⟨u, hwake, -, hutrace, ⟨r, hresp, hok, -⟩, -⟩ := exec_wake_completes ht.callsSucceed htb
  have hready : u.chip.Ready := by
    obtain ⟨u', hwake', hmode, hrec', -, -, -, hpend', hmust, hlost', -⟩ :=
      (sleepAndWakeMoveThePowerMode t ht htb htp htl).2 htr
    obtain rfl : u = u' := Host.Outcome.next.inj (hwake.symm.trans hwake')
    exact ⟨hmode, hrec', hpend', hmust, hlost'⟩
  refine ⟨t, u, r, hsleep, hwake, ?_, hresp, hok, hready⟩
  rw [hutrace, htrace, hhandle]
  simp

/-! When calls may fail. -/

/-- From `s` to `t` no wait was made. -/
def State.Waitless (s t : State) : Prop := s.Extends (fun e => e.isWait = false) t

/-- An operation begun at `s` has made no wait, and none of the rest `ms` of its micro-program is one, in an environment
that answers. -/
structure State.BeforeWait (s : State) (ms : List MStep) (t : State) : Prop where
  answered : t.Answered
  placed   : ∀ m ∈ ms, m.WellPlaced
  noWait   : ∀ m ∈ ms, m.act.isWait = false
  waitless : s.Waitless t

theorem perform_beforeWait {op : Op} {m : MStep} {ms : List MStep} {s t : State} (h : s.BeforeWait (m :: ms) t) :
    (perform op m t).Holds (s.BeforeWait ms) s.Waitless fun _ => False := by
  obtain ⟨hm, hms⟩ := List.forall_mem_cons.mp h.placed
  obtain ⟨hw, hws⟩ := List.forall_mem_cons.mp h.noWait
  have waitless : ∀ {ok u}, StepMade m.act ok t u → s.Waitless u := fun hu => by
    obtain ⟨e, htrace, hshows, -⟩ := hu.event
    exact h.waitless.trans (.of_event htrace (hshows.isWait_eq.trans hw))
  refine perform_holds hm fun r hr => ?_
  cases hr with
  | skipped x hx hf => exact ⟨h.answered, hms, hws, h.waitless⟩
  | passes ok u hu hp => exact ⟨hu.answered h.answered, hms, hws, waitless hu⟩
  | aborts ok u hu hd => exact waitless hu
  | stands u ho hn => exact hn h.answered
  | reset u ho hn => exact hn h.answered

theorem xferSteps_noWait (k : Fin 3) (st : Step) (xs : List Xfer) : ∀ m ∈ xferSteps k st xs, m.act.isWait = false := by
  induction xs generalizing st with
  | nil => exact nofun
  | cons x xs ih => exact List.forall_mem_cons.mpr ⟨rfl, ih _⟩

/-- A frame holds no wait (spec/40_framing.md R80). -/
theorem frameSteps_noWait (k : Fin 3) (xs : List Xfer) : ∀ m ∈ frameSteps k xs, m.act.isWait = false :=
  List.forall_mem_cons.mpr ⟨rfl, List.forall_mem_append.mpr
    ⟨xferSteps_noWait k .xfer0 xs, List.forall_mem_singleton.mpr rfl⟩⟩

/-- A frame and the wait after it: the wait is made once the frame has finished, and only then. -/
theorem run_frame_wait {s : State} (hs : s.Answered) (op : Op) (k : Fin 3) (xs : List Xfer) (us : Nat) :
    (run op (frameSteps k xs ++ [waitStep us]) s).Holds (fun t => ∃ u, s.Waitless u ∧ t.trace = u.trace ++ [.wait us])
      s.Waitless fun _ => False := by
  have hframe : (run op (frameSteps k xs) s).Holds (s.BeforeWait []) s.Waitless fun _ => False :=
    run_holds (fun _ _ _ => perform_beforeWait)
      ⟨hs, (wellPlanned_frameSteps k xs).wellPlaced, frameSteps_noWait k xs, .of_trace_eq rfl⟩
  refine run_append_holds hframe fun u hu => ?_
  rw [run, perform_wait hu.answered]
  exact ⟨u, hu.waitless, rfl⟩

/-- From `s` to `t` an operation has been answered, and the wait of `us` comes exactly with OK, last before the
response. -/
def State.WaitsExactlyWithOk (s : State) (us : Nat) (t : State) : Prop :=
  ∃ l r, t.trace = s.trace ++ l ∧ t.response = some r ∧
    (r.status = .ok → ∃ l', l = l' ++ [.wait us, .rsp .ok false none none] ∧ ∀ e ∈ l', e.isWait = false) ∧
    (r.status ≠ .ok → ∀ e ∈ l, e.isWait = false)

/-- An answer other than OK, and no wait before it. -/
theorem State.Waitless.waitsExactlyWithOk {s t : State} (h : s.Waitless t) {r : Response} (hr : t.response = some r)
    (hst : r.status ≠ .ok) (us : Nat) : s.WaitsExactlyWithOk us t := by
  obtain ⟨l, htrace, hl⟩ := h
  exact ⟨l, r, htrace, hr, fun hok => absurd hok hst, fun _ => hl⟩

/-- An instruction of one frame and a wait, in an environment that answers. -/
theorem exec_waitsExactlyWithOk {i : Instr} {s : State} (hs : s.Answered) {xs : List Xfer} {us : Nat}
    (hsteps : (planOf i s).steps = frameSteps 0 xs ++ [waitStep us]) (hresult : (planOf i s).result = noResult) :
    ∃ t, exec i s = .next t ∧ s.WaitsExactlyWithOk us t := by
  cases hv : (planOf i s).valid with
  | false =>
    obtain ⟨htrace, ⟨r, hresp, hst, -⟩, -⟩ := runPlan_rejected hv
    have hwaitless : s.Waitless (runPlan i (planOf i s) s) := ⟨_, htrace, by simp [Event.isWait]⟩
    exact ⟨_, exec_eq i s, hwaitless.waitsExactlyWithOk hresp (by simp [hst]) us⟩
  | true =>
    have hsb : (s.begun i).Answered := fun a ha => hs a (s.begun_env i ▸ ha)
    have hreq : s.Waitless (s.begun i) := .of_event (s.begun_prepared i).trace rfl
    have hrun := run_frame_wait hsb (opOf i) 0 xs us
    refine ⟨_, exec_valid hv, ?_⟩
    rw [hsteps, hresult]
    refine conclude_holds (opOf i) noResult hrun (fun t ht => ?_) (fun t ht => ?_) fun _ ht => ht.elim
    · obtain ⟨u, hu, htrace⟩ := ht
      obtain ⟨l, hl, hwaitless⟩ := hreq.trans hu
      refine ⟨l ++ [.wait us, .rsp .ok false none none], _, ?_, rfl, fun _ => ⟨l, rfl, hwaitless⟩, fun h => absurd rfl h⟩
      calc (t.completed i .done).trace = t.trace ++ [.rsp .ok false none none] := rfl
        _ = s.trace ++ (l ++ [.wait us, .rsp .ok false none none]) := by
          rw [htrace, hl]
          simp
    · have hrsp : t.Waitless (t.raiseCapabilityFailure (opOf i)) := .of_event (t.raiseCapabilityFailure_trace _) rfl
      have hwaitless : s.Waitless (t.raiseCapabilityFailure (opOf i)) := (hreq.trans ht).trans hrsp
      exact hwaitless.waitsExactlyWithOk rfl nofun us

/-- Settles O28: the wait stands after the frame, and the micro-program ends at a frame that has failed. -/
theorem waitOnlyAfterASuccessfulFrame : Obligations.WaitOnlyAfterASuccessfulFrame := by
  unfold Obligations.WaitOnlyAfterASuccessfulFrame
  intro s hs
  obtain ⟨t, hsleep, l, r, ht⟩ := exec_waitsExactlyWithOk (i := .sleep true) (us := 100) hs rfl rfl
  obtain ⟨u, hwake, l', r', hu⟩ := exec_waitsExactlyWithOk (i := .wake true) (us := 400) hs rfl rfl
  exact ⟨⟨t, l, r, hsleep, ht⟩, ⟨u, l', r', hwake, hu⟩⟩

end Sys2Proof.Machine
end

section
/-! PROOFS. The status-register operations and the derived queries when every call succeeds (spec/44_status_ops.md R130
to R135): the status-read frame and what is made of its byte, and the WRSR frame in its bracket. -/

namespace Sys2Proof.Machine

/-- Settles O34: one status-read frame, the byte of which is the result. -/
theorem readStatusRegisterCompletes : Obligations.ReadStatusRegisterCompletes := by
  unfold Obligations.ReadStatusRegisterCompletes
  intro s hs hb
  have hcheck : (checkHandle true s && true) = true := (Bool.and_true _).trans hb
  obtain ⟨t, b, hex, rfl, hdone⟩ := exec_statusFrame (i := .readStatusRegister true true) hs hcheck rfl
  exact ⟨_, _, hex, hdone.completes nofun rfl⟩

/-- Settles O35: the WRSR frame, the value in it as it came, in its bracket. -/
theorem writeStatusRegisterCompletes : Obligations.WriteStatusRegisterCompletes := by
  unfold Obligations.WriteStatusRegisterCompletes
  intro s v hs hb
  exact exec_bracketed_sent (i := .writeStatusRegister true v) hs nofun hb rfl rfl

/-- A query whose check passes, with a mask that tests bit `k`: a status-read frame, and bit `k` of its byte is the
answer (R135). -/
theorem exec_query {i : Instr} {s : State} {check : Bool} {mask : Byte} {k : Nat} (hs : s.CallsSucceed)
    (hb : s.handle.bound = true) (hi : opOf i ≠ .init) (hplan : planOf i s = planQuery check true mask s)
    (hcheck : check = true) (hmask : ∀ sr, srTest sr mask = sr.getLsbD k) :
    ∃ t b, exec i s = .next t ∧
      Completes i s t s.handle (frameEvents s.handle.csPin [sent [0x05#8], exchanged [0x00#8] [b]]) (b.getLsbD k)
        none none := by
  have hvalid : (planOf i s).valid = true := by
    rw [hplan, hcheck]
    exact hb
  obtain ⟨t, b, hex, hsr, hdone⟩ := exec_statusFrame hs hvalid (by rw [hplan]; rfl)
  have hresult : (planOf i s).result t = .value (b.getLsbD k) := by
    rw [hplan, ← hmask b, ← hsr]
    rfl
  rw [hresult] at hex
  exact ⟨_, b, hex, hdone.completes hi rfl⟩

/-- Settles O36: each query tests one bit, WEL, WPEN or the block's. -/
theorem queriesAnswerOneBit : Obligations.QueriesAnswerOneBit := by
  unfold Obligations.QueriesAnswerOneBit
  intro s hs hb
  refine ⟨exec_query (i := .isWriteEnabled true) hs hb nofun rfl rfl srWelBit_eq,
    exec_query (i := .isWriteProtected true) hs hb nofun rfl rfl srWpenBit_eq, fun n hn => ?_⟩
  have hmask (sr : Byte) : srTest sr (blockMask n) = sr.getLsbD (2 + n.toNat) := by
    rw [blockMask_eq hn, srTest_bit sr (2 + n.toNat) (by omega)]
  exact exec_query (i := .isBlockProtected true n) hs hb nofun rfl (decide_eq_true hn) hmask

end Sys2Proof.Machine
end

section
/-! PROOFS. Calls and waits left open (spec/60_exceptions.md R154): what a step does by the next item of the script, and
how an instruction stands at a call that is not answered. -/

namespace Sys2Proof.Machine

/-! Asking the environment at a step. -/

theorem State.ask_reply {s : State} {ok : Bool} {rx : List Byte} {e : List Answer} (h : s.env = .reply ok rx :: e) :
    s.ask = .answer ok rx (s.setEnv e) := by
  rw [State.ask, h]

theorem State.ask_silent {s : State} (h : s.env.head? = some .silent) : s.ask = .silent := by
  obtain ⟨e, h⟩ := List.head?_eq_some_iff.mp h
  rw [State.ask, h]

theorem MStep.asking_env (m : MStep) (op : Op) (s : State) : (m.asking op s).env = s.env := by
  obtain ⟨k, st, act⟩ := m
  cases act <;> rfl

theorem MStep.asking_setEnv (m : MStep) (op : Op) (s : State) (e : List Answer) :
    m.asking op (s.setEnv e) = (m.asking op s).setEnv e := by
  obtain ⟨k, st, act⟩ := m
  cases act <;> rfl

theorem MStep.asking_seq {m : MStep} (hm : m.WellPlaced) (op : Op) (s : State) :
    (m.asking op s).seq = .busy op m.frame m.step := by
  obtain ⟨k, st, act⟩ := m
  cases act with
  | wait us =>
    obtain ⟨rfl, rfl⟩ : k = 0 ∧ st = .wait := hm
    rfl
  | csHigh0 | csLow | xfer | csHigh => rfl

/-- At WAIT the delay counter is loaded once only (spec/60_exceptions.md R163). -/
theorem State.atWait_of_seq {s : State} {op : Op} (h : s.seq = .busy op 0 .wait) (us : Nat) :
    s.atWait op us = s := by
  rw [State.atWait, if_pos h, ← h]
  rfl

/-- A step that asks again finds what it left when it asked before. -/
theorem MStep.asking_asking (m : MStep) (op : Op) (s : State) : m.asking op (m.asking op s) = m.asking op s := by
  obtain ⟨k, st, act⟩ := m
  cases act with
  | wait us => exact State.atWait_of_seq rfl us
  | csHigh0 | csLow | xfer | csHigh => rfl

theorem perform_of_reply (op : Op) {m : MStep} {s : State} (hf : ∀ x, m.act = .xfer x → s.work.fail = false)
    {ok : Bool} {rx : List Byte} {e : List Answer} (h : s.env = .reply ok rx :: e) :
    perform op m s = m.act.answered s.work.fail ok rx ((m.asking op s).setEnv e) := by
  rw [perform_eq_turn op hf, State.ask_reply ((m.asking_env op s).trans h)]
  rfl

theorem perform_of_silent (op : Op) {m : MStep} {s : State} (hf : ∀ x, m.act = .xfer x → s.work.fail = false)
    (h : s.env.head? = some .silent) : perform op m s = .hold (m.asking op s) := by
  rw [perform_eq_turn op hf, State.ask_silent ((m.asking_env op s).symm ▸ h)]
  rfl

/-! A step that stands open. -/

theorem Act.answered_ne_hold (a : Act) (failed ok : Bool) (rx : List Byte) (u t : State) :
    a.answered failed ok rx u ≠ .hold t := by
  cases a with
  | csHigh0 | csHigh => simp only [Act.answered]; split <;> exact nofun
  | csLow | xfer | wait => exact nofun

/-- A step of `op` stands open: asking again changes nothing, and the step would not be skipped. -/
structure MStep.OpenAt (m : MStep) (op : Op) (t : State) : Prop where
  asked : m.asking op t = t
  made  : ∀ x, m.act = .xfer x → t.work.fail = false

/-- While its call is not answered an open step stays where it is. -/
theorem MStep.OpenAt.perform_silent {m : MStep} {op : Op} {t : State} (h : m.OpenAt op t)
    (he : t.env.head? = some .silent) : perform op m t = .hold t := by
  rw [perform_of_silent op h.made he, h.asked]

/-- FAIL does not change while a transfer asks. -/
theorem MStep.openAt_asking {m : MStep} {op : Op} {s : State} (h : ∀ x, m.act = .xfer x → s.work.fail = false) :
    m.OpenAt op (m.asking op s) := by
  refine ⟨m.asking_asking op s, fun x hx => ?_⟩
  obtain ⟨k, st, act⟩ := m
  obtain rfl : act = .xfer x := hx
  exact h x rfl

theorem MStep.OpenAt.setEnv {m : MStep} {op : Op} {t : State} (h : m.OpenAt op t) (e : List Answer) :
    m.OpenAt op (t.setEnv e) :=
  ⟨by rw [m.asking_setEnv, h.asked], h.made⟩

/-- A tick while the wait goes on. -/
theorem MStep.OpenAt.setDly {m : MStep} {op : Op} {t : State} (h : m.OpenAt op t) {us : Nat} (ha : m.act = .wait us)
    (n : Nat) : m.OpenAt op (t.setDly n) := by
  obtain ⟨k, st, act⟩ := m
  obtain rfl : act = .wait us := ha
  have hq : t.seq = .busy op 0 .wait := by rw [← h.asked]; rfl
  exact ⟨State.atWait_of_seq (s := t.setDly n) hq us, nofun⟩

theorem MStep.OpenAt.ticked {m : MStep} {op : Op} {u t : State} (hu : m.OpenAt op u)
    (h : m.act.ticked u = .hold t) : m.OpenAt op t := by
  obtain ⟨k, st, act⟩ := m
  cases act with
  | wait us =>
    simp only [Act.ticked] at h
    split at h
    · cases h
    · cases h
      exact hu.setDly rfl _
  | csHigh0 | csLow | xfer | csHigh =>
    cases h
    exact hu

/-- The two ways a step does not go on: it stands open, for no answer but a tick has come, or the reset event has struck
(spec/60_exceptions.md R154, spec/70_reset_and_hazards.md R183). -/
theorem perform_hold {op : Op} {m : MStep} {s t : State} (h : perform op m s = .hold t) :
    (m.OpenAt op t ∧ (.tick ∉ s.env → t.env.head? = some .silent)) ∨ ∃ u : State, t = u.applyReset := by
  have hf : ∀ x, m.act = .xfer x → s.work.fail = false := fun x hx => Bool.eq_false_of_not_eq_true fun hf => by
    rw [perform_skipped op hx hf] at h
    cases h
  have hopen : m.OpenAt op (m.asking op s) := m.openAt_asking hf
  rw [perform_eq_turn op hf] at h
  rcases (m.asking op s).ask_cases with ⟨ok, rx, e, hask, -⟩ | ⟨hask, he⟩ | ⟨e, hask, he⟩ | ⟨e, hask, -⟩ <;>
    rw [hask] at h
  · exact absurd h (Act.answered_ne_hold _ _ _ _ _ _)
  · cases h
    exact .inl ⟨hopen, fun _ => he⟩
  · rw [m.asking_env] at he
    exact .inl ⟨(hopen.setEnv e).ticked h, fun hn => absurd (by simp [he]) hn⟩
  · cases h
    exact .inr ⟨_, rfl⟩

/-! An instruction left open. -/

/-- The instruction `i`, taken up at `s`, has been left at `t` without a response: the framer stands at a call or wait
of it, or a reset event has struck. -/
structure State.LeftOpen (s : State) (i : Instr) (t : State) : Prop where
  unanswered : ¬ s.Answered
  response   : t.response = none
  rq         : t.work.rq = some i
  stands     : t.seq = .idle ∨ ∃ m ms, m :: ms <:+ (planOf i s).steps ∧ m.OpenAt (opOf i) t ∧
    (.tick ∉ s.env → t.env.head? = some .silent)

theorem StepFrame.begun_env {s t : State} {i : Instr} (h : StepFrame (s.begun i) t) : ∀ a ∈ t.env, a ∈ s.env :=
  fun a ha => s.begun_env i ▸ h.env a ha

/-- How the micro-program of an instruction ends, in any environment. -/
theorem run_ends (i : Instr) (s : State) :
    (run (opOf i) (planOf i s).steps (s.begun i)).Holds (StepFrame (s.begun i)) (StepFrame (s.begun i))
      (s.LeftOpen i) := by
  have hbegun := s.begun_prepared i
  refine (run_holds (inv := fun ms t => ms <:+ (planOf i s).steps ∧ StepFrame (s.begun i) t) (fun m ms t ht => ?_)
    ⟨List.suffix_rfl, .refl _⟩).mono (fun _ ht => ht.2) fun _ ht => ht
  obtain ⟨hsuf, ht⟩ := ht
  have hsuf' : ms <:+ (planOf i s).steps := (List.suffix_cons m ms).trans hsuf
  have hanswered : ¬ t.Answered → ¬ s.Answered := fun hn hs => hn fun a ha => hs a (ht.begun_env a ha)
  have hm := perform_performs ((wellPlanned_planOf i s).wellPlaced m (hsuf.subset List.mem_cons_self)) (op := opOf i) t
  generalize hr : perform (opOf i) m t = r at hm
  cases hm with
  | skipped => exact ⟨hsuf', ht⟩
  | passes ok u hu => exact ⟨hsuf', ht.trans hu.toStepFrame⟩
  | aborts ok u hu => exact ht.trans hu.toStepFrame
  | stands u ho hn =>
    refine ⟨hanswered hn, ho.response.trans (ht.response.trans hbegun.response),
      ho.rq.trans (ht.rq.trans hbegun.rq), ?_⟩
    rcases perform_hold hr with ⟨hopen, hsilent⟩ | ⟨v, rfl⟩
    · exact .inr ⟨m, ms, hsuf, hopen, fun htick => hsilent fun h => htick (ht.begun_env _ h)⟩
    · exact .inl rfl
  | reset u ho hn => exact ⟨hanswered hn, rfl, ho.rq.trans (ht.rq.trans hbegun.rq), .inl rfl⟩

theorem step_inFlight {s : State} {op : Op} {k : Fin 3} {st : Step} (he : s.env.head? ≠ some .reset)
    (hq : s.seq = .busy op k st) : step s = .next s.resume := by
  rw [step, State.fetch_inFlight he hq]

/-- An operation in flight whose call is open and stays unanswered. -/
theorem step_of_open {i : Instr} {m : MStep} {ms : List MStep} {t : State} (hms : m :: ms <:+ (planOf i t).steps)
    (hrq : t.work.rq = some i) (h : m.OpenAt (opOf i) t) (he : t.env.head? = some .silent) : step t = .next t := by
  have hm := (wellPlanned_planOf i t).wellPlaced m (hms.subset List.mem_cons_self)
  have hq : t.seq = .busy (opOf i) m.frame m.step := by rw [← h.asked, MStep.asking_seq hm]
  rw [step_inFlight (by simp [he]) hq]
  have hresumes := State.resume_resumes hq
  generalize t.resume = u at hresumes
  cases hresumes with
  | stays => rfl
  | checks j hj => exact absurd hj hm.step_isCall.1
  | responds j hj => exact absurd hj hm.step_isCall.2
  | goesOn j n ns hrq' hns =>
    obtain rfl : i = j := Option.some.inj (hrq.symm.trans hrq')
    rw [stepsFrom_of_suffix (planOf_places_nodup i t) hms] at hns
    rw [← hns, run, h.perform_silent he]
    rfl

/-- Settles O25: an instruction ends with the framer idle, or it is left at an open step, which asks again and changes
nothing. -/
theorem unansweredCallWaitsForEver : Obligations.UnansweredCallWaitsForEver := by
  unfold Obligations.UnansweredCallWaitsForEver
  intro i s t hex hbusy
  cases hv : (planOf i s).valid with
  | false =>
    rw [exec_eq] at hex
    cases hex
    obtain ⟨-, -, -, hidle, -⟩ := runPlan_rejected hv
    exact absurd hidle hbusy
  | true =>
    rw [exec_valid hv] at hex
    cases hex
    suffices hopen : s.LeftOpen i (conclude (opOf i) (planOf i s).result (run (opOf i) (planOf i s).steps (s.begun i)))
    · obtain ⟨m, ms, hms, hm, hsilent⟩ := hopen.stands.resolve_left hbusy
      rw [planOf_steps i s] at hms
      exact ⟨hopen.response, step_of_open hms hopen.rq hm, hsilent⟩
    revert hbusy
    refine conclude_holds (P := fun t => t.seq ≠ .idle → s.LeftOpen i t) _ _ (run_ends i s) (fun u _ hbusy => ?_)
      (fun u _ hbusy => ?_) fun _ hu _ => hu
    · rw [State.respondOk_eq] at hbusy
      exact absurd rfl hbusy
    · exact absurd (u.raiseCapabilityFailure_seq _) hbusy

end Sys2Proof.Machine
end

section
/-! PROOFS. The argument checks and InvalidArgument (spec/60_exceptions.md R151, R156). -/

namespace Sys2Proof.Machine

theorem checkHandle_eq_false_iff {h : Bool} {s : State} :
    checkHandle h s = false ↔ h = false ∨ s.handle.gpioBound = false ∨ s.handle.spiBound = false := by
  simp only [checkHandle, Handle.bound, Bool.and_eq_false_iff]

theorem rangeOK_eq_false_iff {m : Nat} {addr len : Field32} :
    rangeOK m addr len = false ↔ len.toNat = 0 ∨ m < len.toNat ∨ 0x7FFFF < addr.toNat ∨
      0x7FFFF < addr.toNat + len.toNat - 1 := by
  rw [← Bool.not_eq_true, rangeOK_iff]
  omega

theorem checkData_eq_false_iff {buf : Bool} {addr len : Field32} {s : State} :
    checkData buf addr len s = false ↔ buf = false ∨ len.toNat = 0 ∨ s.params.maxXferLen < len.toNat ∨
      0x7FFFF < addr.toNat ∨ 0x7FFFF < addr.toNat + len.toNat - 1 := by
  rw [checkData, Bool.and_eq_false_iff, rangeOK_eq_false_iff]

/-- The check of a host operation fails exactly for the causes of R151. -/
theorem argumentCause_iff {i : Instr} (hi : i.space = .host) (s : State) :
    argumentCause s i ↔ (planOf i s).valid = false := by
  cases i with
  | cmdWren | cmdWrdi | cmdRdsr | cmdWrsr | cmdRead | cmdWrite | cmdSleep | cmdWake => cases hi
  | init h gpio spi pin =>
    simp only [argumentCause, planOf, planInit, Bool.and_eq_false_iff, or_assoc]
  | read | write =>
    simp only [argumentCause, planOf, planRead, planWrite, Bool.and_eq_false_iff, checkHandle_eq_false_iff,
      checkData_eq_false_iff, or_assoc]
  | readStatusRegister =>
    simp only [argumentCause, planOf, planReadStatusRegister, Bool.and_eq_false_iff, checkHandle_eq_false_iff, or_assoc]
  | isBlockProtected h n =>
    simp only [argumentCause, planOf, planIsBlockProtected, planQuery, Bool.and_eq_false_iff, checkHandle_eq_false_iff,
      decide_eq_false_iff_not, Nat.not_le]
    tauto
  | writeEnable | writeDisable | sleep | wake | writeStatusRegister | isWriteEnabled | isWriteProtected =>
    exact checkHandle_eq_false_iff.symm

/-- What is taken up at `s` and left at `t` is not answered InvalidArgument, and is answered where every call is. -/
def State.PassesCheck (s t : State) : Prop :=
  (∀ r, t.response = some r → r.status ≠ .invalidArgument) ∧ (s.Answered → t.response ≠ none)

theorem State.passesCheck_of_response {s t : State} {r : Response} (ht : t.response = some r)
    (hr : r.status ≠ .invalidArgument) : s.PassesCheck t :=
  ⟨fun _ hr' => Option.some.inj (ht.symm.trans hr') ▸ hr, fun _ => by simp [ht]⟩

/-- After a check that passes the response says how the calls went. -/
theorem conclude_passesCheck (i : Instr) (s : State) :
    s.PassesCheck (conclude (opOf i) (planOf i s).result (run (opOf i) (planOf i s).steps (s.begun i))) := by
  refine conclude_holds _ _ (run_ends i s) (fun t _ => ?_) (fun t _ => ?_) fun t ht => ?_
  · rw [State.respondOk_eq]
    exact State.passesCheck_of_response rfl nofun
  · exact State.passesCheck_of_response rfl nofun
  · exact ⟨fun r hr => by simp [ht.response] at hr, fun hs => absurd hs ht.unanswered⟩

/-- Settles O15: the causes are those for which the check fails, and a check that fails is the one source of
InvalidArgument. -/
theorem invalidArgumentExactlyForTheListedCauses : Obligations.InvalidArgumentExactlyForTheListedCauses := by
  unfold Obligations.InvalidArgumentExactlyForTheListedCauses
  intro i s hi
  rw [argumentCause_iff hi]
  cases hv : (planOf i s).valid with
  | false => exact ⟨_, exec_eq i s, fun _ => runPlan_rejected hv, fun h => absurd rfl h⟩
  | true => exact ⟨_, exec_valid hv, nofun, fun _ => conclude_passesCheck i s⟩

end Sys2Proof.Machine
end

section
/-! PROOFS. Failed calls and the response (spec/60_exceptions.md R152, R155): in an environment that answers every call,
FAIL and the ends of a micro-program say whether a call has failed. -/

namespace Sys2Proof.Machine

/-- From `s` to `t` events were shown, and `failed` says whether one of them is a failed call. -/
def State.ShowsFailure (s : State) (failed : Bool) (t : State) : Prop :=
  ∃ l, t.trace = s.trace ++ l ∧ l.any Event.failed = failed

theorem State.ShowsFailure.event {s t u : State} {failed : Bool} (h : s.ShowsFailure failed t) {e : Event}
    (hu : u.trace = t.trace ++ [e]) : s.ShowsFailure (failed || e.failed) u := by
  obtain ⟨l, hl, hfailed⟩ := h
  exact ⟨l ++ [e], by rw [hu, hl, List.append_assoc], by simp [hfailed]⟩

/-- Every call is answered, and a call since `s` has failed only where a frame is open and FAIL says so; the rest `ms`
of a micro-program is still to make. -/
structure State.FailKept (s : State) (ms : List MStep) (t : State) : Prop where
  answered : t.Answered
  planned  : WellPlanned ms
  shown    : s.ShowsFailure (frameOpen ms && t.work.fail) t

/-- One step, every call answered (spec/40_framing.md R80, R83, R92). -/
theorem perform_failKept {op : Op} {m : MStep} {ms : List MStep} {s t : State} (h : s.FailKept (m :: ms) t) :
    (perform op m t).Holds (s.FailKept ms) (s.ShowsFailure true) fun _ => False := by
  obtain ⟨ht, ⟨hm, hopen, hms⟩, hshown⟩ := h
  obtain ⟨k, st, act⟩ := m
  have hnext : ∀ {u}, perform op ⟨k, st, act⟩ t = .next u → u.Answered := fun hp =>
    (StepFrame.of_next hm hp).answered ht
  cases act with
  | csHigh0 =>
    obtain ⟨-, -, -, -, -, -, -, -, -, htrace⟩ := t.deselected_frame op k st
    have hp := perform_csHigh0 ht op k st
    have hu := hshown.event htrace
    cases hok : headOk t.env <;> rw [hok] at hp hu <;> rw [hp]
    · exact hu
    · exact ⟨hnext hp, hms, by rw [← hopen]; exact hu⟩
  | csLow fr =>
    obtain rfl : st = .csLow := hm
    obtain ⟨-, -, -, -, -, -, -, hwork, htrace⟩ := t.selected_frame op k fr
    have hp := perform_csLow ht op k fr
    rw [hp]
    refine ⟨hnext hp, hms, ?_⟩
    rw [← hopen, hwork]
    exact hshown.event htrace
  | xfer x =>
    cases hf : t.work.fail with
    | true =>
      rw [perform_xfer_skipped t op k st x hf]
      exact ⟨ht, hms, by rw [← hopen]; exact hshown⟩
    | false =>
      obtain ⟨-, -, -, -, -, -, -, hwork, htrace⟩ := t.transferred_frame op k st x
      have hp := perform_xfer ht op k st x hf
      rw [hp]
      refine ⟨hnext hp, hms, ?_⟩
      rw [hf] at hshown
      rw [← hopen, hwork]
      exact hshown.event htrace
  | csHigh =>
    obtain ⟨-, -, -, -, -, -, -, -, -, htrace⟩ := t.deselected_frame op k st
    have hp := perform_csHigh ht op k st
    have hu : s.ShowsFailure (t.work.fail || !headOk t.env) (t.deselected op k st) := hshown.event htrace
    cases hf : t.work.fail || !headOk t.env <;> rw [hf] at hp hu <;> rw [hp]
    · exact ⟨hnext hp, hms, by rw [← hopen]; exact hu⟩
    · exact hu
  | wait us =>
    obtain ⟨rfl, rfl⟩ : k = 0 ∧ st = .wait := hm
    have hp : perform op ⟨0, .wait, .wait us⟩ t = .next (t.waited op us) := perform_wait ht op us
    rw [hp]
    refine ⟨hnext hp, hms, ?_⟩
    rw [← hopen]
    exact hshown.event (u := t.waited op us) rfl

/-- A micro-program is finished when no call of it has failed, and otherwise it has failed (R83, R92). -/
theorem run_showsFailure {i : Instr} {s : State} (hs : s.Answered) :
    (run (opOf i) (planOf i s).steps (s.begun i)).Holds (s.ShowsFailure false) (s.ShowsFailure true)
      fun _ => False := by
  have hreq : s.ShowsFailure false (s.begun i) := ⟨_, (s.begun_prepared i).trace, rfl⟩
  have hbegun : s.FailKept (planOf i s).steps (s.begun i) :=
    ⟨fun a ha => hs a (s.begun_env i ▸ ha), wellPlanned_planOf i s, by rw [planOf_frameOpen]; exact hreq⟩
  exact (run_holds (fun _ _ _ => perform_failKept) hbegun).mono (fun _ ht => ht.shown) fun _ ht => ht

/-- The instruction taken up at `s` has ended at `t` with the response `r`, and the events `l` were shown. -/
structure State.Answers (s t : State) (l : List Event) (r : Response) : Prop where
  trace    : t.trace = s.trace ++ l
  idle     : t.seq = .idle
  response : t.response = some r
  failure  : r.status = .capabilityFailure ↔ ∃ e ∈ l, e.failed = true
  invalid  : r.status = .invalidArgument → ∀ e ∈ l, e.isCall = false
  value    : r.status ≠ .ok → r.value = false

/-- The response of an instruction whose check passes. -/
theorem conclude_answers {i : Instr} {s : State} (hs : s.Answered) :
    ∃ l r, s.Answers (conclude (opOf i) (planOf i s).result (run (opOf i) (planOf i s).steps (s.begun i))) l r := by
  refine conclude_holds (P := fun t => ∃ l r, s.Answers t l r) _ _ (run_showsFailure hs) (fun t ht => ?_)
    (fun t ht => ?_) fun _ ht => ht.elim
  · rw [State.respondOk_eq]
    obtain ⟨l, hl, hfailed⟩ := ht.event (State.respond_trace t .ok _ _ _)
    refine ⟨l, _, hl, rfl, rfl, ⟨nofun, fun hex => ?_⟩, nofun, fun hne => absurd rfl hne⟩
    rw [List.any_eq_true.mpr hex] at hfailed
    cases hfailed
  · obtain ⟨l, hl, hfailed⟩ := ht.event (t.raiseCapabilityFailure_trace (opOf i))
    exact ⟨l, _, hl, t.raiseCapabilityFailure_seq _, rfl, ⟨fun _ => List.any_eq_true.mp hfailed, fun _ => rfl⟩, nofun,
      fun _ => rfl⟩

/-- Settles O17: an instruction that is refused makes no call; the micro-program of another finishes exactly when none
of its calls has failed. -/
theorem anyFailedCallDecidesTheStatus : Obligations.AnyFailedCallDecidesTheStatus := by
  unfold Obligations.AnyFailedCallDecidesTheStatus
  intro i s hs
  cases hv : (planOf i s).valid with
  | false =>
    obtain ⟨htrace, ⟨r, hresp, hst, hvalue⟩, -, hidle, -⟩ := runPlan_rejected hv
    exact ⟨_, _, r, exec_eq i s, htrace, hidle, hresp, by simp [hst, Event.failed], by simp [Event.isCall],
      fun _ => hvalue⟩
  | true =>
    obtain ⟨l, r, h⟩ := conclude_answers (i := i) hs
    exact ⟨_, l, r, exec_valid hv, h.trace, h.idle, h.response, h.failure, h.invalid, h.value⟩

end Sys2Proof.Machine
end

section
/-! PROOFS. The delay counter of `sleep` and `wake` (spec/60_exceptions.md R163; log 20): how it is loaded, and how the
ticks of the timebase take it down. -/

namespace Sys2Proof.Machine

/-! The load. -/

/-- The load is the least number of ticks no shorter than the wait. -/
theorem delayTicks_least {n us : Nat} (hn : 1 ≤ n) (hus : 1 ≤ us) :
    us * 1000 ≤ delayTicks n us * n ∧ (delayTicks n us - 1) * n < us * 1000 := by
  have hceil (k : Nat) : delayTicks n us ≤ k ↔ us * 1000 ≤ k * n := by
    rw [Nat.mul_comm k n]
    exact ceilDiv_le_iff_le_mul hn
  refine ⟨(hceil _).mp le_rfl, Nat.lt_of_not_le fun h => ?_⟩
  have hload := (hceil _).mpr h
  obtain hzero : delayTicks n us - 1 = 0 := by omega
  rw [hzero] at h
  omega

/-- A call answered with success, whatever the script holds after it, where no call of the frame has failed. -/
theorem perform_replied {op : Op} {m : MStep} {s : State} {rx : List Byte} {e : List Answer}
    (hcall : m.act.isCall = true) (hf : m.act.inside = true → s.work.fail = false) (h : s.env = .reply true rx :: e) :
    ∃ t, perform op m s = .next t ∧ t.env = e ∧ t.seq = .busy op m.frame m.step ∧ t.params = s.params ∧
      (m.act.leavesOpen = true → t.work.fail = false) ∧ t.chip.csLevel = m.act.levelAfter true s.chip.csLevel := by
  rw [perform_of_reply op (fun x hx => hf (by rw [hx]; rfl)) h]
  obtain ⟨k, st, act⟩ := m
  set u := (MStep.asking ⟨k, st, act⟩ op s).setEnv e with hu
  cases act with
  | csHigh0 =>
    have hpin := u.pinWrite_frame .high true []
    exact ⟨_, rfl, hpin.env, hpin.seq, hpin.params, nofun, hpin.csLevel⟩
  | csLow fr =>
    have hpin := u.pinWrite_frame .low true fr
    exact ⟨_, rfl, hpin.env, hpin.seq, hpin.params, fun _ => rfl, hpin.csLevel⟩
  | xfer x =>
    have hxfer := u.transfer_frame x true rx
    refine ⟨_, rfl, hxfer.env, hxfer.seq, hxfer.params, fun _ => congrArg Work.fail hxfer.work, ?_⟩
    rw [State.transfer_eq, State.rxStored_eq]
    exact State.chipTakes_csLevel _ _ _
  | csHigh =>
    have hpin := u.pinWrite_frame .high true []
    rw [hf rfl]
    exact ⟨_, rfl, hpin.env, hpin.seq, hpin.params, nofun, hpin.csLevel⟩
  | wait us => cases hcall

/-- A frame of one transfer whose three calls are answered with success. -/
theorem run_frame_replied {s : State} {r₁ r₂ r₃ : List Byte} {e : List Answer}
    (h : s.env = .reply true r₁ :: .reply true r₂ :: .reply true r₃ :: e) (op : Op) (k : Fin 3) (x : Xfer) :
    ∃ t, run op (frameSteps k [x]) s = .finished t ∧ t.env = e ∧ t.seq = .busy op k .csHigh ∧ t.params = s.params ∧
      t.chip.csLevel = .high := by
  obtain ⟨t, ht, henv, -, hparams, hfail, -⟩ :=
    perform_replied (op := op) (m := ⟨k, .csLow, .csLow (content [x])⟩) rfl nofun h
  obtain ⟨u, hu, henv', -, hparams', hfail', -⟩ :=
    perform_replied (op := op) (m := ⟨k, .xfer0, .xfer x⟩) rfl (fun _ => hfail rfl) henv
  obtain ⟨v, hv, henv'', hseq, hparams'', -, hlevel⟩ :=
    perform_replied (op := op) (m := ⟨k, .csHigh, .csHigh⟩) rfl (fun _ => hfail' rfl) henv'
  refine ⟨v, ?_, henv'', hseq, hparams''.trans (hparams'.trans hparams), hlevel⟩
  simp only [frameSteps, xferSteps, List.cons_append, List.nil_append, run, ht, hu, hv]

/-- A frame of one transfer and its wait, where the calls succeed and the wait is not answered: the framer stands at
WAIT with the counter loaded. -/
theorem exec_stands_at_wait {i : Instr} {s : State} {x : Xfer} {us : Nat} (hv : (planOf i s).valid = true)
    (hsteps : (planOf i s).steps = frameSteps 0 [x] ++ [waitStep us]) (hus : 1 ≤ us) (hn : 1 ≤ s.params.tickNs)
    {r₁ r₂ r₃ : List Byte} {e : List Answer}
    (he : s.env = .reply true r₁ :: .reply true r₂ :: .reply true r₃ :: .silent :: e) :
    ∃ t, exec i s = .next t ∧ t.seq = .busy (opOf i) 0 .wait ∧ t.chip.csLevel = .high ∧
      us * 1000 ≤ t.work.dly * s.params.tickNs ∧ (t.work.dly - 1) * s.params.tickNs < us * 1000 := by
  obtain ⟨t, hrun, henv, hseq, hparams, hlevel⟩ := run_frame_replied ((s.begun_env i).trans he) (opOf i) 0 x
  have hwait : perform (opOf i) (waitStep us) t = .hold (t.atWait (opOf i) us) :=
    perform_of_silent (opOf i) nofun (by rw [henv]; rfl)
  have hload : (t.atWait (opOf i) us).work.dly = delayTicks s.params.tickNs us := by
    have hticks : t.params = s.params := hparams.trans (s.begun_prepared i).params
    rw [← hticks]
    exact if_neg (by simp [hseq])
  refine ⟨t.atWait (opOf i) us, ?_, rfl, hlevel, ?_⟩
  · rw [exec_valid hv, hsteps, run_append_of_finished hrun, run, hwait]
    rfl
  · rw [hload]
    exact delayTicks_least hn hus

/-- Settles O26: after the frame the counter is loaded with the ceiling, and a wait that is not answered keeps it. -/
theorem delayCounterRoundsUp : Obligations.DelayCounterRoundsUp := by
  unfold Obligations.DelayCounterRoundsUp
  intro s r₁ r₂ r₃ e hb hn he
  exact ⟨exec_stands_at_wait (i := .sleep true) (us := 100) hb rfl (by omega) hn he,
    exec_stands_at_wait (i := .wake true) (us := 400) hb rfl (by omega) hn he⟩

/-! The ticks. -/

/-- The tick that comes while `sleep` or `wake` stands at WAIT (R163). -/
theorem step_tick_at_wait {i : Instr} {us : Nat} (hi : (i = .sleep true ∧ us = 100) ∨ (i = .wake true ∧ us = 400))
    {s : State} {e : List Answer} (hq : s.seq = .busy (opOf i) 0 .wait) (hrq : s.work.rq = some i)
    (he : s.env = .tick :: e) :
    step s = .next (if s.work.dly ≤ 1 then ((s.setEnv e).endWait us).completed i .done
      else (s.setEnv e).setDly (s.work.dly - 1)) := by
  have hresume : s.resume = conclude (opOf i) noResult (run (opOf i) [waitStep us] s) := by
    simp only [State.resume, hq, hrq]
    rcases hi with ⟨rfl, rfl⟩ | ⟨rfl, rfl⟩ <;> rfl
  rw [step_inFlight (by simp [he]) hq, hresume, run, perform_wait_tick he, State.atWait_of_seq hq]
  by_cases hd : s.work.dly ≤ 1
  · rw [if_pos hd, if_pos hd]
    rfl
  · rw [if_neg hd, if_neg hd]
    rfl

/-- Settles O27: a tick at WAIT finds the counter as it was left, and takes one off it or ends the wait. -/
theorem delayCounterCountsTheTicks : Obligations.DelayCounterCountsTheTicks := by
  unfold Obligations.DelayCounterCountsTheTicks
  intro s op i us e hop hq hrq he
  obtain ⟨hi, rfl⟩ : ((i = .sleep true ∧ us = 100) ∨ (i = .wake true ∧ us = 400)) ∧ op = opOf i := by
    rcases hop with ⟨rfl, rfl, rfl⟩ | ⟨rfl, rfl, rfl⟩
    · exact ⟨.inl ⟨rfl, rfl⟩, rfl⟩
    · exact ⟨.inr ⟨rfl, rfl⟩, rfl⟩
  rw [step_tick_at_wait hi hq hrq he]
  refine ⟨fun hd => ?_, fun hd => ?_⟩
  · rw [if_neg (by omega)]
    rfl
  · rw [if_pos (by omega)]
    refine ⟨_, _, rfl, ?_, rfl, rfl, rfl, rfl, rfl, rfl, rfl⟩
    exact List.append_assoc _ _ _

end Sys2Proof.Machine
end

section
/-! PROOFS. What a bracketed command leaves on a ready chip, whatever calls of it fail (spec/60_exceptions.md R157):
what was there, or its effect, whole or drawn in part; the latch aside, which the frames around it and a failure
change. -/

namespace Sys2Proof.Machine

/-- The array, and the status register but for the latch, are the same. -/
structure Chip.SameButLatch (c c' : Chip) : Prop where
  mem : c'.mem = c.mem
  sr  : setWel c'.sr false = setWel c.sr false

section
variable {c c' : Chip} (h : c.SameButLatch c')
include h

theorem Chip.SameButLatch.getLsbD {k : Nat} (hk : k < 8) (h1 : k ≠ 1) : c'.sr.getLsbD k = c.sr.getLsbD k := by
  simpa [setWel_getLsbD _ _ hk, h1] using congrArg (·.getLsbD k) h.sr

theorem Chip.SameButLatch.writable : c'.sr &&& 0x8C#8 = c.sr &&& 0x8C#8 := by
  simpa using congrArg (· &&& 0x8C#8) h.sr

theorem Chip.SameButLatch.reserved : c'.sr &&& 0x71#8 = c.sr &&& 0x71#8 := by
  simpa using congrArg (· &&& 0x71#8) h.sr

end

/-- The two commands that set and clear the latch, whole or cut short (spec/20_memory.md R41, R42). -/
theorem State.latchEffect_sameButLatch {cmd : Command} (h : cmd = .wren ∨ cmd = .wrdi) (u : State) :
    u.chip.SameButLatch (u.frameEffect cmd).chip ∧ u.chip.SameButLatch (u.cutEffect cmd).chip := by
  rcases h with rfl | rfl <;> exact ⟨⟨rfl, setWel_setWel _ _ _⟩, ⟨rfl, setWel_setWel _ _ _⟩⟩

/-- The chip after a Write-Enable frame. -/
def Chip.enabled (c : Chip) : Chip := { c with sr := setWel c.sr true, afterRead := false, csLevel := .high }

theorem Chip.sameButLatch_enabled (c : Chip) : c.SameButLatch c.enabled := ⟨rfl, setWel_setWel _ _ _⟩

/-- A property of the chip that looks at the array and the status register only, and not at the latch. -/
def Chip.LatchBlind (Q : Chip → Prop) : Prop := ∀ ⦃c c'⦄, Q c → c.SameButLatch c' → Q c'

/-- The command leaves a chip with the property, taken whole or cut short. -/
def State.EffectsIn (Q : Chip → Prop) (cmd : Command) (u : State) : Prop :=
  Q (u.frameEffect cmd).chip ∧ Q (u.cutEffect cmd).chip

section
variable {Q : Chip → Prop} (hQ : Chip.LatchBlind Q) {s : State} {cmd : Command}
include hQ

/-- The level of chip-select and the frame under way do not count. -/
theorem Chip.LatchBlind.onWire {c : Chip} (h : Q c) (l : CsLevel) (p : Option Pending) : Q (c.onWire l p) :=
  hQ h ⟨rfl, rfl⟩

/-- A frame whose effects have the property. -/
theorem Chip.LatchBlind.run_frame (hr : s.chip.Ready) (hf : cmd.Fits) (hs : s.Answered)
    (hcmd : ∀ u : State, u.params = s.params → u.chip = s.chip → u.EffectsIn Q cmd) (op : Op) (k : Fin 3) :
    (run op (frameSteps k cmd.xfers) s).Holds (fun t => s.FrameTaken cmd t ∧ Q t.chip) (Q ·.chip) fun _ => False := by
  refine (run_frame_chip (hr.accepts cmd) hf hs op k).mono (fun t ht => ⟨ht, ?_⟩) fun t ht => ?_
  · obtain ⟨u, hu, hup, hchip⟩ := ht.chip
    rw [hchip]
    exact hQ.onWire (hcmd u hup hu).1 _ _
  · obtain ⟨u, l, p, hu, hup, hchip⟩ := ht
    rw [hchip]
    exact hQ.onWire (hcmd u hup hu).2 _ _

/-- A Write-Enable or Write-Disable frame keeps the property. -/
theorem Chip.LatchBlind.effectsIn (h : Q s.chip) (hcmd : cmd = .wren ∨ cmd = .wrdi) (u : State) (hu : u.chip = s.chip) :
    u.EffectsIn Q cmd := by
  obtain ⟨htaken, hcut⟩ := State.latchEffect_sameButLatch hcmd u
  rw [← hu] at h
  exact ⟨hQ h htaken, hQ h hcut⟩

/-- The property along a bracket: it holds before, and the command's effects on the chip that the Write-Enable frame
leaves have it. -/
theorem Chip.LatchBlind.run_bracketed (h : Q s.chip) (hr : s.chip.Ready) (hs : s.Answered) (hsl : cmd ≠ .sleep)
    (hf : cmd.Fits)
    (hcmd : ∀ u : State, u.params = s.params → u.chip = s.chip.enabled → u.EffectsIn Q cmd) (op : Op) :
    (run op (bracketed cmd.xfers) s).Holds (Q ·.chip) (Q ·.chip) fun _ => False := by
  have hfirst := hQ.run_frame hr (cmd := .wren) trivial hs (fun u _ => hQ.effectsIn h (.inl rfl) u) op 0
  have hmid := run_append_holds (ns := frameSteps 1 cmd.xfers)
    (last := fun t => (t.Answered ∧ t.chip.Ready) ∧ Q t.chip) hfirst fun t ⟨ht, _⟩ => by
      have hchip : t.chip = s.chip.enabled := ht.chip_wren (hr.accepts .wren).pending
      have hready := ht.ready hr nofun
      have ha := ht.answered hs
      have hrun := hQ.run_frame hready hf ha (fun u hup hu => hcmd u (hup.trans ht.params) (hu.trans hchip)) op 1
      exact hrun.mono (fun v ⟨hv, hq⟩ => ⟨⟨hv.answered ha, hv.ready hready hsl⟩, hq⟩) fun _ hv => hv
  refine run_append_holds hmid fun t ⟨⟨ha, hready⟩, hq⟩ => ?_
  have hlast := hQ.run_frame hready (cmd := .wrdi) trivial ha (fun u _ => hQ.effectsIn hq (.inr rfl) u) op 2
  exact hlast.mono (fun _ ht => ht.2) fun _ ht => ht

/-- The response changes no more than the latch. -/
theorem Chip.LatchBlind.conclude {r : Run} (h : r.Holds (Q ·.chip) (Q ·.chip) fun _ => False) (op : Op)
    (result : State → Result) : Q (conclude op result r).chip := by
  refine conclude_holds (P := fun t => Q t.chip) op result h (fun t ht => ?_) (fun t ht => ?_) fun _ ht => ht.elim
  · rw [State.respondOk_eq]
    exact hQ ht ⟨rfl, rfl⟩
  · obtain ⟨b, lv, hchip, -⟩ := t.raiseCapabilityFailure_chip op
    refine hQ ht ?_
    rw [hchip]
    refine ⟨rfl, ?_⟩
    dsimp only
    split
    · exact setWel_setWel _ _ _
    · rfl

/-- From the check of an instruction whose command stands in a bracket to its response. -/
theorem Chip.LatchBlind.exec_bracketed {i : Instr} (h : Q s.chip) (hr : s.chip.Ready) (hs : s.Answered)
    (hv : (planOf i s).valid = true) (hsteps : (planOf i s).steps = bracketed cmd.xfers) (hsl : cmd ≠ .sleep)
    (hf : cmd.Fits)
    (hcmd : ∀ u : State, u.params = s.params → u.chip = s.chip.enabled → u.EffectsIn Q cmd) :
    ∃ t, exec i s = .next t ∧ Q t.chip := by
  have hbegun := s.begun_prepared i
  rw [← s.begun_chip i] at h hr hcmd
  have hrun := hQ.run_bracketed h hr (fun a ha => hs a (s.begun_env i ▸ ha)) hsl hf
    (fun u hup => hcmd u (hup.trans hbegun.params)) (opOf i)
  exact ⟨_, exec_valid hv, hQ.conclude (hsteps ▸ hrun) _ _⟩

end

/-! The array after a `write`. -/

/-- Each byte is that of the chip `c₀` or, inside the range of the payload `d` at `a`, the payload byte for its address;
the bits WPEN, BP1 and BP0 are those of `c₀`. -/
def Chip.BytesOldOrNew (c₀ : Chip) (a : Nat) (d : List Byte) (c : Chip) : Prop :=
  (∀ x, Memory.read c.mem x = Memory.read c₀.mem x ∨
    (a ≤ x ∧ x < a + d.length ∧ Memory.read c.mem x = d.getD (x - a) 0#8)) ∧ c.sr &&& 0x8C#8 = c₀.sr &&& 0x8C#8

theorem Chip.latchBlind_bytesOldOrNew (c₀ : Chip) (a : Nat) (d : List Byte) :
    Chip.LatchBlind (c₀.BytesOldOrNew a d) := by
  rintro c c' ⟨hmem, hsr⟩ h
  exact ⟨by rw [h.mem]; exact hmem, h.writable.trans hsr⟩

/-- A payload stored at some of its addresses, or not at all. -/
theorem Memory.read_writeN_oldOrNew {m : Memory} (hm : Memory.wf m) {a : Nat} {d : List Byte}
    (ha : a + d.length ≤ Config.addrSpaceBytes) (b : Bool) (take : Nat → Bool) (x : Nat) :
    let m' := if b then Memory.writeN take m a d else m
    Memory.read m' x = Memory.read m x ∨ (a ≤ x ∧ x < a + d.length ∧ Memory.read m' x = d.getD (x - a) 0#8) := by
  cases b with
  | false => exact .inl rfl
  | true =>
    simp only [if_true, Memory.read_writeN take hm a d ha]
    split
    · next hin =>
      obtain ⟨hlow, hhigh, -⟩ := hin
      exact .inr ⟨hlow, hhigh, rfl⟩
    · exact .inl rfl

/-- A WRITE frame, whole or drawn in part, stores payload bytes only, each at its own address. -/
theorem State.write_bytesOldOrNew {c₀ : Chip} {u : State} (hu : c₀.SameButLatch u.chip) (hm : Memory.wf c₀.mem)
    {a : Addr} {d : List Byte} (hf : (Command.write a d).Fits) :
    u.EffectsIn (c₀.BytesOldOrNew a.toNat d) (.write a d) := by
  have hend : a.toNat + d.length ≤ Config.addrSpaceBytes := of_decide_eq_true (Bool.and_eq_true_iff.mp hf).2
  have hstored := fun b take => Memory.read_writeN_oldOrNew hm hend b take
  rw [← hu.mem] at hstored
  have hsr (b : Bool) : setWel u.chip.sr b &&& 0x8C#8 = c₀.sr &&& 0x8C#8 := (setWel_writable _ b).trans hu.writable
  exact ⟨⟨by rw [← hu.mem]; exact hstored _ _, hsr _⟩, ⟨by rw [← hu.mem]; exact hstored _ _, hsr _⟩⟩

/-- Settles O49: of the three frames only the WRITE frame touches the array, and it stores payload bytes only. -/
theorem failedWriteLeavesBytesOldOrNew : Obligations.FailedWriteLeavesBytesOldOrNew := by
  unfold Obligations.FailedWriteLeavesBytesOldOrNew
  intro s addr len data hs hr hinv hb hrange hlen
  have hv : (planOf (.write true true addr len data) s).valid = true := dataChecks_pass hb hrange
  have hfits : (Command.write (maskAddr addr) data).Fits := payloadFits_of_rangeOK hrange hlen
  have hblind := s.chip.latchBlind_bytesOldOrNew (maskAddr addr).toNat data
  obtain ⟨t, hex, hmem, hsr⟩ := hblind.exec_bracketed (cmd := .write (maskAddr addr) data) ⟨fun _ => .inl rfl, rfl⟩
    hr hs hv rfl nofun hfits fun u _ hu => State.write_bytesOldOrNew (hu ▸ s.chip.sameButLatch_enabled) hinv.1 hfits
  rw [maskAddr_of_rangeOK hrange, hlen] at hmem
  exact ⟨t, hex, hmem, hsr⟩

/-! The status register after a `write_status_register`. -/

/-- The array is that of the chip `c₀`; each of WPEN, BP1 and BP0 is that of `c₀` or of `v`; the reserved bits are those
of `c₀`. -/
def Chip.BitsOldOrNew (c₀ : Chip) (v : Byte) (c : Chip) : Prop :=
  c.mem = c₀.mem ∧
    (∀ k, k = 7 ∨ k = 3 ∨ k = 2 → c.sr.getLsbD k = c₀.sr.getLsbD k ∨ c.sr.getLsbD k = v.getLsbD k) ∧
    c.sr &&& 0x71#8 = c₀.sr &&& 0x71#8

theorem Chip.latchBlind_bitsOldOrNew (c₀ : Chip) (v : Byte) : Chip.LatchBlind (c₀.BitsOldOrNew v) := by
  rintro c c' ⟨hmem, hbits, hres⟩ h
  refine ⟨h.mem.trans hmem, fun k hk => ?_, h.reserved.trans hres⟩
  rw [h.getLsbD (by omega) (by omega)]
  exact hbits k hk

theorem Chip.bitsOldOrNew_refl (c : Chip) (v : Byte) : c.BitsOldOrNew v c := ⟨rfl, fun _ _ => .inl rfl, rfl⟩

/-- A status write takes the three bits from the value, or none of them (spec/20_memory.md R45). -/
theorem srAfterWrsr_cases (p : Params) (sr v : Byte) :
    srAfterWrsr p sr v = sr ∨ srAfterWrsr p sr v = setWritable sr v := by
  unfold srAfterWrsr
  split
  · exact .inr rfl
  · exact .inl rfl

theorem Chip.SameButLatch.bitsOldOrNew_setWritable {c₀ c : Chip} (h : c₀.SameButLatch c) (v : Byte) :
    c₀.BitsOldOrNew v { c with sr := setWritable c.sr v } :=
  ⟨h.mem, fun k hk => .inr ((setWritable_getLsbD c.sr v (by omega)).trans (if_pos hk)),
    (setWritable_reserved c.sr v).trans h.reserved⟩

/-- A WRSR frame that does not follow a READ frame, whole or drawn in part, takes bits from the value only. -/
theorem State.wrsr_bitsOldOrNew {c₀ : Chip} {u : State} (hu : c₀.SameButLatch u.chip)
    (hread : u.chip.afterRead = false) (v : Byte) : u.EffectsIn (c₀.BitsOldOrNew v) (.wrsr v) := by
  have hblind := c₀.latchBlind_bitsOldOrNew v
  have old : c₀.BitsOldOrNew v u.chip := hblind (c₀.bitsOldOrNew_refl v) hu
  have written : c₀.BitsOldOrNew v { u.chip with sr := srAfterWrsr u.params u.chip.sr v } := by
    rcases srAfterWrsr_cases u.params u.chip.sr v with h | h <;> rw [h]
    · exact old
    · exact hu.bitsOldOrNew_setWritable v
  constructor
  · simp only [State.frameEffect, hread, Bool.false_eq_true, if_false]
    exact hblind written ⟨rfl, setWel_setWel _ _ _⟩
  · simp only [State.cutEffect, hread, Bool.false_eq_true, if_false]
    split
    · exact hblind written ⟨rfl, setWel_setWel _ _ _⟩
    · exact hblind old ⟨rfl, setWel_setWel _ _ _⟩

/-- Settles O59: of the three frames only the WRSR frame touches more of the register than the latch. -/
theorem failedStatusWriteLeavesBitsOldOrNew : Obligations.FailedStatusWriteLeavesBitsOldOrNew := by
  unfold Obligations.FailedStatusWriteLeavesBitsOldOrNew
  intro s v hs hr hb
  exact (s.chip.latchBlind_bitsOldOrNew v).exec_bracketed (i := .writeStatusRegister true v) (cmd := .wrsr v)
    (s.chip.bitsOldOrNew_refl v) hr hs hb rfl nofun trivial fun u _ hu =>
    State.wrsr_bitsOldOrNew (hu ▸ s.chip.sameButLatch_enabled) (by rw [hu]; rfl) v

end Sys2Proof.Machine
end

section
/-! PROOFS. The reset state, the reset event, and the host's list while an operation is in flight
(spec/70_reset_and_hazards.md R180 to R182, R190, spec/10_state.md R21). -/

namespace Sys2Proof.Machine

/-! Right after reset. -/

/-- Settles O12: the reset state's own fields. -/
theorem resetLeavesTheHandleUnbound : Obligations.ResetLeavesTheHandleUnbound := by
  unfold Obligations.ResetLeavesTheHandleUnbound
  exact ⟨rfl, rfl, rfl, rfl, rfl, rfl⟩

/-- Settles O53: the array is empty and the status register 0; an unbound handle asks nothing of the framer or of the
wire. -/
theorem invariantsHoldAtReset : Obligations.InvariantsHoldAtReset := by
  unfold Obligations.InvariantsHoldAtReset
  exact ⟨⟨⟨.nil, nofun⟩, rfl⟩, State.framerInv_of_unbound rfl rfl rfl, (State.wireOnPin_of_unbound rfl).wireInv⟩

/-! The reset event at a step. -/

theorem step_reset {s : State} {e : List Answer} (he : s.env = .reset :: e) :
    step s = .next (s.setEnv e).applyReset := by
  simp only [step, State.fetch, he]

/-- Settles O13: the step takes the reset event up before anything else. -/
theorem resetEventSparesTheChip : Obligations.ResetEventSparesTheChip := by
  unfold Obligations.ResetEventSparesTheChip
  intro s e he
  exact ⟨_, step_reset he, rfl, rfl, rfl, rfl, rfl, rfl, rfl, rfl, rfl, rfl, rfl, rfl, rfl⟩

/-! The host's list. -/

/-- No step of a micro-program takes anything off the host's list, whatever the environment does. -/
theorem perform_host {op : Op} {m : MStep} (hm : m.WellPlaced) (s : State) : (perform op m s).state.host = s.host := by
  have hp := perform_performs hm (op := op) s
  generalize perform op m s = r at hp
  cases hp with
  | skipped => rfl
  | passes _ _ hmade => exact hmade.host
  | aborts _ _ hmade => exact hmade.host
  | stands _ hopen => exact hopen.host
  | reset _ hopen => exact hopen.host

theorem run_host (op : Op) {ms : List MStep} (hms : ∀ m ∈ ms, m.WellPlaced) (s : State) :
    (run op ms s).state.host = s.host := by
  induction ms generalizing s with
  | nil => rfl
  | cons m ms ih =>
    obtain ⟨hm, hms⟩ := List.forall_mem_cons.mp hms
    have hstep := perform_host (op := op) hm s
    rw [run]
    cases hp : perform op m s <;> rw [hp] at hstep
    case next t => exact (ih hms t).trans hstep
    all_goals exact hstep

theorem conclude_host (op : Op) (result : State → Result) (r : Run) : (conclude op result r).host = r.state.host := by
  cases r with
  | finished s => rw [conclude, State.respondOk_eq]; rfl
  | failed s => exact s.raiseCapabilityFailure_host op
  | held s => rfl

theorem checkAndRun_host (i : Instr) (s t : State) : (checkAndRun (opOf i) (planOf i s) t).host = t.host := by
  rw [checkAndRun]
  split
  · rw [conclude_host, run_host _ (wellPlanned_planOf i s).wellPlaced, (planOf_prepare i s t).host]
  · rfl

theorem Resumes.host {s t : State} {k : Fin 3} {st : Step} (h : Resumes s k st t) : t.host = s.host := by
  cases h with
  | stays => rfl
  | checks i => exact checkAndRun_host i s s
  | responds i =>
    rw [conclude_host]
    split <;> rfl
  | goesOn i m ms _ hms =>
    have hplanned := (wellPlanned_planOf i s).stepsFrom k st
    rw [hms] at hplanned
    rw [conclude_host, run_host _ hplanned.wellPlaced]

/-- Settles O11: a busy framer's step is the reset event, or the operation going on. -/
theorem noRequestAcceptedInFlight : Obligations.NoRequestAcceptedInFlight := by
  unfold Obligations.NoRequestAcceptedInFlight
  intro s hbusy
  by_cases he : s.env.head? = some .reset
  · obtain ⟨e, he⟩ := List.head?_eq_some_iff.mp he
    exact ⟨_, step_reset he, rfl⟩
  · cases hq : s.seq with
    | idle => exact absurd hq hbusy
    | busy op k st => exact ⟨_, step_inFlight he hq, (State.resume_resumes hq).host⟩

end Sys2Proof.Machine
end

section
/-! PROOFS. Chip-select after an operation in an environment that answers every call (spec/70_reset_and_hazards.md R193,
spec/40_framing.md R82), and the latch after `init` (spec/41_init_wel_ops.md R100). -/

namespace Sys2Proof.Machine

/-! The level of the chip-select wire. -/

theorem Run.Holds.and {finished finished' failed failed' held held' : State → Prop} {r : Run}
    (h : r.Holds finished failed held) (k : r.Holds finished' failed' held') :
    r.Holds (fun s => finished s ∧ finished' s) (fun s => failed s ∧ failed' s) fun s => held s ∧ held' s := by
  cases r <;> exact ⟨h, k⟩

/-- Where the rest `ms` of a micro-program begins at rest, chip-select is HIGH. -/
def State.RestsHigh (ms : List MStep) (s : State) : Prop := restsAt ms = true → s.chip.csLevel = .high

/-- Unless a pin write has failed, chip-select is HIGH. -/
def State.HighUnlessFailed (s : State) : Prop := s.audit.pinFailed = false → s.chip.csLevel = .high

/-- The step before a rest is a pin write HIGH that succeeded, or a wait; a step that fails is a pin write HIGH. -/
theorem perform_restsHigh {op : Op} {m : MStep} {ms : List MStep} {s : State} (hplanned : WellPlanned (m :: ms))
    (hs : s.Answered) (h : s.RestsHigh (m :: ms)) :
    (perform op m s).Holds (State.RestsHigh ms) State.HighUnlessFailed fun _ => False := by
  obtain ⟨hm, hopen, hms⟩ := hplanned
  have hrest : restsAt ms = true → m.act.leavesOpen = false := fun hr => hopen.trans (hms.frameOpen_of_restsAt hr)
  refine perform_holds hm fun r hr => ?_
  cases hr with
  | skipped x ha hf =>
    intro hr
    rw [ha] at hrest
    exact Bool.noConfusion (hrest hr)
  | passes ok t ht hp =>
    intro hr
    rw [ht.csLevel]
    rcases hm.high_or_wait (hrest hr) with hd | ⟨hst, hw⟩
    · rw [Act.levelAfter_of_drivesHigh hd, hp.ok_of_drivesHigh hd]
      rfl
    · rw [hw]
      exact h (by simp [restsAt, hst])
  | aborts ok t ht hd =>
    intro hf
    have hok : ok = true := by
      rw [ht.pinFailed, Act.writesPin_of_drivesHigh hd] at hf
      simpa using (Bool.or_eq_false_iff.mp hf).2
    rw [ht.csLevel, Act.levelAfter_of_drivesHigh hd, hok]
    rfl
  | stands t ho hn => exact hn hs
  | reset t ho hn => exact hn hs

/-- Every micro-program begins in no rest. -/
theorem run_restsHigh {i : Instr} {s : State} (hs : s.Answered) :
    (run (opOf i) (planOf i s).steps (s.begun i)).Holds (State.RestsHigh []) State.HighUnlessFailed fun _ => False := by
  refine (run_holds (inv := fun ms t => WellPlanned ms ∧ t.Answered ∧ t.RestsHigh ms) (fun m ms t ht => ?_)
    ⟨wellPlanned_planOf i s, fun a ha => hs a (s.begun_env i ▸ ha), fun hr => ?_⟩).mono (fun _ ht => ht.2.2)
      fun _ ht => ht
  · obtain ⟨hplanned, hanswered, hhigh⟩ := ht
    have hm := perform_restsHigh (op := opOf i) hplanned hanswered hhigh
    cases hp : perform (opOf i) m t <;> rw [hp] at hm
    case next u => exact ⟨hplanned.2.2, (StepFrame.of_next hplanned.1 hp).answered hanswered, hm⟩
    all_goals exact hm
  · rw [planOf_restsAt] at hr
    cases hr

/-- From `s` to `t` events were shown, and chip-select is unknown where one of them is a failed pin write, HIGH
otherwise. -/
def State.LeavesLevel (s t : State) : Prop :=
  ∃ l, t.trace = s.trace ++ l ∧ t.chip.csLevel = if l.any Event.pinFailed then .unknown else .high

/-- From the micro-program's events to those of the instruction: request and response are no pin writes. -/
theorem DrivesOwnPin.leavesLevel {i : Instr} {s t t' : State} {l : List Event} (h : DrivesOwnPin (s.begun i) t l)
    {st v sr d} (htrace : t'.trace = t.trace ++ [.rsp st v sr d])
    (hlevel : t'.chip.csLevel = if t.audit.pinFailed then .unknown else .high) : s.LeavesLevel t' := by
  have hfailed : t.audit.pinFailed = l.any Event.pinFailed := by
    rw [h.pinFailed, (s.begun_prepared i).audit, State.accept_pinFailed, Bool.false_or]
  refine ⟨.req i :: (l ++ [.rsp st v sr d]), ?_, ?_⟩
  · rw [htrace, h.trace, (s.begun_prepared i).trace, State.accept_trace]
    simp
  · rw [hlevel, hfailed]
    simp [Event.pinFailed]

/-- An instruction whose check passes, in an environment that answers every call. -/
theorem conclude_leavesLevel {i : Instr} {s : State} (hs : s.Answered) :
    s.LeavesLevel (conclude (opOf i) (planOf i s).result (run (opOf i) (planOf i s).steps (s.begun i))) := by
  refine conclude_holds (P := s.LeavesLevel) _ _ ((run_driven hs).and (run_restsHigh hs)) (fun t ht => ?_)
    (fun t ht => ?_) fun t ht => ht.1.elim
  · obtain ⟨hdriven, hhigh⟩ := ht
    obtain ⟨l, hl⟩ := hdriven.drives
    have hnone : t.audit.pinFailed = false := Bool.eq_false_of_not_eq_true fun hf => by
      simpa [frameOpen] using (hdriven.fail hf).1
    rw [State.respondOk_eq]
    refine hl.leavesLevel (State.respond_trace _ _ _ _ _) ?_
    rw [hnone]
    exact hhigh rfl
  · obtain ⟨hdriven, hhigh⟩ := ht
    obtain ⟨l, hl⟩ := hdriven.drives
    refine hl.leavesLevel (State.raiseCapabilityFailure_trace _ _) ?_
    obtain ⟨b, lv, hchip, hlv⟩ := t.raiseCapabilityFailure_chip (opOf i)
    rw [hchip]
    cases hf : t.audit.pinFailed
    · exact hlv.trans (hhigh hf)
    · rfl

/-- Settles O21: the last pin write of an operation is a HIGH, and the response forgets the level where one of them has
failed. -/
theorem chipSelectLevelAfterAnOperation : Obligations.ChipSelectLevelAfterAnOperation := by
  unfold Obligations.ChipSelectLevelAfterAnOperation
  intro i s hs
  cases hv : (planOf i s).valid with
  | false =>
    obtain ⟨htrace, -, -, -, -, -, hchip, -⟩ := runPlan_rejected hv
    refine ⟨_, _, exec_eq i s, htrace, ?_, ?_⟩
    · simp [Event.pinFailed]
    · rw [hchip]
      simp [Event.isCall]
  | true =>
    obtain ⟨l, htrace, hlevel⟩ := conclude_leavesLevel (i := i) hs
    refine ⟨_, l, exec_valid hv, htrace, fun hfailed => ?_, fun hnone _ => ?_⟩
    · rw [hlevel, if_pos (List.any_eq_true.mpr hfailed)]
    · rw [hlevel, if_neg (by simpa using hnone)]

/-! The latch after `init`. -/

/-- An instruction in an environment that answers every call only takes answers off the script. -/
theorem exec_env {i : Instr} {s t : State} (hs : s.Answered) (hex : exec i s = .next t) : ∀ a ∈ t.env, a ∈ s.env := by
  cases hv : (planOf i s).valid with
  | false =>
    rw [exec_eq] at hex
    cases hex
    obtain ⟨-, -, -, -, -, -, -, henv⟩ := runPlan_rejected hv
    exact fun a ha => henv ▸ ha
  | true =>
    rw [exec_valid hv] at hex
    cases hex
    refine conclude_holds (P := fun t => ∀ a ∈ t.env, a ∈ s.env) _ _ (run_ends i s) (fun t ht => ?_) (fun t ht => ?_)
      fun t ht => absurd hs ht.unanswered
    · rw [State.respondOk_eq]
      exact ht.begun_env
    · rw [State.raiseCapabilityFailure_env]
      exact ht.begun_env

/-- An instruction that passes its check leaves the handle bound, whatever its calls answer. -/
theorem exec_bound {i : Instr} {s t : State} (hs : s.Answered) (hv : (planOf i s).valid = true)
    (hex : exec i s = .next t) : t.handle.bound = true := by
  rw [exec_eq] at hex
  cases hex
  rw [(runPlan_handle hs hv).1]
  exact planOf_prepare_bound hv rfl

/-- Settles O47: `init` leaves the chip ready and its latch clear, its frame not a READ, and the query answers with the
latch. -/
theorem initEstablishesWriteProtection : Obligations.InitEstablishesWriteProtection := by
  unfold Obligations.InitEstablishesWriteProtection
  intro s pin he hr
  obtain ⟨-, -, hinit⟩ := enableAndDisableFramesSetTheLatch s he hr
  obtain ⟨t, hex, hchip⟩ := hinit pin
  have hanswered := he.callsSucceed.answered
  have hready : t.chip.Ready := by rw [hchip]; exact hr
  have hlatch : t.chip.sr.getLsbD 1 = false := by rw [hchip, ← srWelBit_eq, srWelBit_setWel]
  obtain ⟨-, ⟨u, r, hquery, hresp, hok, hvalue, -⟩, -, -⟩ := statusReadReturnsTheRegister t
    (fun a ha => he a (exec_env hanswered hex a ha)) hready (by rw [hchip]) (exec_bound hanswered rfl hex)
  exact ⟨t, u, r, hex, hquery, hresp, hok, hvalue.trans hlatch⟩

end Sys2Proof.Machine
end

section
/-! PROOFS. The rest of the script plays no part in what is done with an answer: every operation commutes with replacing
it (spec/00_scope.md R6; log 2). -/

namespace Sys2Proof.Machine

/-! The chip and the wire. -/

theorem State.frameEffect_setEnv (s : State) (e : List Answer) (c : Command) :
    (s.setEnv e).frameEffect c = (s.frameEffect c).setEnv e := by
  cases c with
  | rdsr | wrsr => by_cases h : s.chip.afterRead = true <;> simp only [State.frameEffect, State.setEnv_chip, h] <;> rfl
  | _ => rfl

theorem State.cutEffect_setEnv (s : State) (e : List Answer) (c : Command) :
    (s.setEnv e).cutEffect c = (s.cutEffect c).setEnv e := by
  cases c with
  | rdsr | wrsr => by_cases h : s.chip.afterRead = true <;> simp only [State.cutEffect, State.setEnv_chip, h] <;> rfl
  | _ => rfl

theorem State.ifLost_setEnv (s : State) (e : List Answer) : (s.setEnv e).ifLost = s.ifLost.setEnv e :=
  (apply_ite (State.setEnv · e) (s.chip.lost = true) s.loseChip s).symm

theorem State.takeFrame_setEnv {effect : State → Command → State}
    (he : ∀ s e c, effect (State.setEnv s e) c = (effect s c).setEnv e) (s : State) (e : List Answer)
    (bytes : List Byte) : (s.setEnv e).takeFrame effect bytes = (s.takeFrame effect bytes).setEnv e := by
  unfold State.takeFrame
  split
  · rfl
  · cases chipDecode bytes with
    | none => rfl
    | some c =>
      dsimp only
      rw [← State.ifLost_setEnv, ← he, apply_ite (State.setEnv · e)]
      rfl

theorem State.redrawFrame_setEnv (s : State) (e : List Answer) (bytes : List Byte) :
    (s.setEnv e).redrawFrame bytes = (s.redrawFrame bytes).setEnv e := by
  unfold State.redrawFrame
  cases chipDecode (fullFrame bytes) with
  | none => rfl
  | some c => simp only [State.cutEffect_setEnv, State.ifLost_setEnv]

theorem State.endFrame_setEnv (s : State) (e : List Answer) (p : Pending) (ok : Bool) :
    (s.setEnv e).endFrame p ok = (s.endFrame p ok).setEnv e := by
  unfold State.endFrame
  split
  · exact s.redrawFrame_setEnv e _
  · split
    · exact s.takeFrame_setEnv State.cutEffect_setEnv e _
    · exact s.takeFrame_setEnv State.frameEffect_setEnv e _

theorem State.joinFrame_setEnv (s : State) (e : List Answer) : (s.setEnv e).joinFrame = s.joinFrame.setEnv e := by
  simp only [State.joinFrame, State.setEnv_chip]
  cases s.chip.pending with
  | none => rfl
  | some p => dsimp only; split <;> rfl

theorem State.beginFrame_setEnv (s : State) (e : List Answer) (fr : List Byte) :
    (s.setEnv e).beginFrame fr = (s.beginFrame fr).setEnv e := by
  unfold State.beginFrame
  rw [apply_ite (State.setEnv · e)]
  rfl

theorem State.doubtHigh_setEnv (s : State) (e : List Answer) (ok : Bool) :
    (s.setEnv e).doubtHigh ok = (s.doubtHigh ok).setEnv e := by
  unfold State.doubtHigh
  rw [apply_ite (State.setEnv · e)]
  rfl

theorem State.driveLow_setEnv (s : State) (e : List Answer) (ok : Bool) (fr : List Byte) :
    (s.setEnv e).driveLow ok fr = (s.driveLow ok fr).setEnv e := by
  rw [State.driveLow, State.joinFrame_setEnv, State.beginFrame_setEnv]
  rfl

theorem State.driveHigh_setEnv (s : State) (e : List Answer) (ok : Bool) :
    (s.setEnv e).driveHigh ok = (s.driveHigh ok).setEnv e := by
  simp only [State.driveHigh, State.setEnv_chip]
  cases s.chip.pending with
  | none => dsimp only; rw [State.doubtHigh_setEnv]; rfl
  | some p => dsimp only; rw [State.endFrame_setEnv]; rfl

theorem State.chipTakes_setEnv (s : State) (e : List Answer) (tx : List Byte) (ok : Bool) :
    (s.setEnv e).chipTakes tx ok = (s.chipTakes tx ok).setEnv e := by
  unfold State.chipTakes
  rw [apply_ite (State.setEnv · e)]
  rfl

/-! The steps of a micro-program. -/

theorem State.pinWrite_setEnv (s : State) (e : List Answer) (l : Level) (ok : Bool) (fr : List Byte) :
    (s.setEnv e).pinWrite l ok fr = (s.pinWrite l ok fr).setEnv e := by
  cases l with
  | low => exact (s.pinWritten .low ok).driveLow_setEnv e ok fr
  | high => exact (s.pinWritten .high ok).driveHigh_setEnv e ok

theorem State.transfer_setEnv (s : State) (e : List Answer) (x : Xfer) (ok : Bool) (rx : List Byte) :
    (s.setEnv e).transfer x ok rx = (s.transfer x ok rx).setEnv e := by
  rw [State.transfer_eq, State.transfer_eq, show (s.setEnv e).rxStored x ok rx = (s.rxStored x ok rx).setEnv e by
    rw [State.rxStored_eq, State.rxStored_eq]; rfl, State.chipTakes_setEnv]
  rfl

/-- The script replaced in what a step comes to. -/
def Turn.setEnv (e : List Answer) : Turn → Turn
  | .next s => .next (s.setEnv e)
  | .abort s => .abort (s.setEnv e)
  | .hold s => .hold (s.setEnv e)

/-- The script replaced in what a micro-program comes to. -/
def Run.setEnv (e : List Answer) : Run → Run
  | .finished s => .finished (s.setEnv e)
  | .failed s => .failed (s.setEnv e)
  | .held s => .held (s.setEnv e)

theorem Act.answered_setEnv (a : Act) (failed ok : Bool) (rx : List Byte) (u : State) (e : List Answer) :
    a.answered failed ok rx (u.setEnv e) = (a.answered failed ok rx u).setEnv e := by
  cases a with
  | csHigh0 => simp only [Act.answered, State.pinWrite_setEnv]; split <;> rfl
  | csLow fr => simp only [Act.answered, State.pinWrite_setEnv]; rfl
  | xfer x => simp only [Act.answered, State.transfer_setEnv]; rfl
  | csHigh => simp only [Act.answered, State.pinWrite_setEnv]; split <;> rfl
  | wait us => rfl

/-! From the request to the response. -/

theorem planOf_setEnv (i : Instr) (s : State) (e : List Answer) : planOf i (s.setEnv e) = planOf i s := by
  cases i <;> rfl

theorem State.begun_setEnv (s : State) (e : List Answer) (i : Instr) : (s.setEnv e).begun i = (s.begun i).setEnv e := by
  cases i <;> rfl

theorem planOf_result_setEnv (i : Instr) (s t : State) (e : List Answer) :
    (planOf i s).result (t.setEnv e) = (planOf i s).result t := by
  cases i <;> rfl

theorem State.raiseCapabilityFailure_setEnv (s : State) (e : List Answer) (op : Op) :
    (s.setEnv e).raiseCapabilityFailure op = (s.raiseCapabilityFailure op).setEnv e := by
  have hresidue : (s.setEnv e).residue op = (s.residue op).setEnv e := by
    unfold State.residue
    split <;> rfl
  have hforget : ((s.residue op).setEnv e).forgetLevel = (s.residue op).forgetLevel.setEnv e := by
    unfold State.forgetLevel
    rw [apply_ite (State.setEnv · e)]
    rfl
  rw [State.raiseCapabilityFailure, hresidue, hforget]
  rfl

theorem conclude_setEnv (i : Instr) (s : State) (r : Run) (e : List Answer) :
    conclude (opOf i) (planOf i s).result (r.setEnv e) = (conclude (opOf i) (planOf i s).result r).setEnv e := by
  cases r with
  | finished t =>
    simp only [Run.setEnv, conclude, planOf_result_setEnv, State.respondOk_eq]
    rfl
  | failed t => exact t.raiseCapabilityFailure_setEnv e _
  | held t => rfl

end Sys2Proof.Machine
end

section
/-! PROOFS. A reset event at a call or wait of an operation (spec/70_reset_and_hazards.md R183; log 4), beside the same
operation without it. -/

namespace Sys2Proof.Machine

/-! One step of a micro-program by the next item of the script. -/

/-- A step is a transfer after a failed call of its frame, which is skipped (spec/40_framing.md R81), or it asks the
environment. -/
theorem MStep.skips_or_asks (m : MStep) (s : State) :
    (∃ x, m.act = .xfer x ∧ s.work.fail = true) ∨ ∀ x, m.act = .xfer x → s.work.fail = false := by
  cases hf : s.work.fail with
  | false => exact .inr fun _ _ => rfl
  | true =>
    cases ha : m.act with
    | xfer x => exact .inl ⟨x, rfl, rfl⟩
    | _ => exact .inr nofun

/-- An answer is taken with one event, that of the step. -/
theorem Act.answered_trace (a : Act) (failed ok : Bool) (rx : List Byte) (u : State) :
    ∃ e, (a.answered failed ok rx u).state.trace = u.trace ++ [e] := by
  cases a with
  | csHigh0 | csHigh => simp only [Act.answered]; split <;> exact ⟨_, (u.pinWrite_frame .high ok []).trace⟩
  | csLow fr => exact ⟨_, (u.pinWrite_frame .low ok fr).trace⟩
  | xfer x => exact ⟨_, (u.transfer_frame x ok rx).trace⟩
  | wait us => exact ⟨_, u.endWait_trace us⟩

theorem MStep.asking_trace (m : MStep) (op : Op) (s : State) : (m.asking op s).trace = s.trace := by
  obtain ⟨k, st, act⟩ := m
  cases act <;> rfl

section
variable (op : Op) {m : MStep} {s : State} (hf : ∀ x, m.act = .xfer x → s.work.fail = false)
include hf

theorem perform_setEnv_reply (ok : Bool) (rx : List Byte) (e : List Answer) :
    perform op m (s.setEnv (.reply ok rx :: e)) = (m.act.answered s.work.fail ok rx (m.asking op s)).setEnv e := by
  rw [perform_of_reply op (s := s.setEnv (.reply ok rx :: e)) hf rfl, m.asking_setEnv, ← Act.answered_setEnv]
  rfl

theorem perform_setEnv_nil :
    perform op m (s.setEnv []) = (m.act.answered s.work.fail true [] (m.asking op s)).setEnv [] := by
  rw [perform_eq_turn op (s := s.setEnv []) hf, m.asking_setEnv, ← Act.answered_setEnv]
  rfl

theorem perform_of_reset {e : List Answer} (he : s.env = .reset :: e) :
    perform op m s = .hold ((m.asking op s).setEnv e).applyReset := by
  rw [perform_eq_turn op hf, State.ask, m.asking_env, he]
  rfl

end

/-! A micro-program without the reset event and with it. -/

/-- The run `r` in the environment of the answers `l`, begun at `s`, beside the run `r'` in the environment with a reset
event and `e` after them. -/
inductive CutOff (s : State) (l e : List Answer) (r r' : Run) : Prop where
  /-- The reset event is not reached. -/
  | spared (ev : List Event) (htrace : r.state.trace = s.trace ++ ev) (hlen : ev.length ≤ l.length)
      (hr : r' = r.setEnv (l.drop ev.length ++ .reset :: e))
  /-- The reset event strikes once the answers are used up. -/
  | cut (ev : List Event) (htrace : r.state.trace = s.trace ++ ev) (hlen : l.length < ev.length) (t : State)
      (hr : r' = .held t.applyReset) (ht : t.trace = s.trace ++ ev.take l.length) (henv : t.env = e)

/-- A step that takes the first answer with its event. -/
theorem CutOff.step {s t : State} {a : Answer} {l e : List Answer} {r r' : Run} {ev : Event} (h : CutOff t l e r r')
    (ht : t.trace = s.trace ++ [ev]) : CutOff s (a :: l) e r r' := by
  have hcons : ∀ evs, t.trace ++ evs = s.trace ++ ev :: evs := by simp [ht]
  cases h with
  | spared evs htrace hlen hr => exact .spared (ev :: evs) (by rw [htrace, hcons]) (Nat.succ_le_succ hlen) hr
  | cut evs htrace hlen u hr hu henv =>
    exact .cut (ev :: evs) (by rw [htrace, hcons]) (Nat.succ_lt_succ hlen) u hr (by rw [hu, hcons]; rfl) henv

theorem run_cutOff (op : Op) (ms : List MStep) (s : State) (e : List Answer) {l : List Answer}
    (hl : ∀ a ∈ l, a.isReply = true) :
    CutOff s l e (run op ms (s.setEnv l)) (run op ms (s.setEnv (l ++ .reset :: e))) := by
  induction ms generalizing s l with
  | nil => exact .spared [] (by simp [run, Run.state]) (Nat.zero_le _) rfl
  | cons m ms ih =>
    rcases m.skips_or_asks s with ⟨x, hx, hfail⟩ | hf
    · have skipped : ∀ e', perform op m (s.setEnv e') = .next (s.setEnv e') := fun e' =>
        perform_skipped op (s := s.setEnv e') hx hfail
      rw [run, run, skipped, skipped]
      exact ih s hl
    rcases l with _ | ⟨⟨ok, rx⟩ | _ | _ | _, l⟩
    case cons.silent | cons.tick | cons.reset => exact Bool.noConfusion (hl _ List.mem_cons_self)
    case nil =>
      obtain ⟨ev, hev⟩ := m.act.answered_trace s.work.fail true [] (m.asking op s)
      rw [m.asking_trace] at hev
      have hmore : ∃ evs, (run op (m :: ms) (s.setEnv [])).state.trace = s.trace ++ ev :: evs := by
        rw [run, perform_setEnv_nil op hf]
        cases hr : m.act.answered s.work.fail true [] (m.asking op s) <;> rw [hr] at hev
        case next t =>
          obtain ⟨evs, hevs, -⟩ := run_extends op ms (t.setEnv [])
          exact ⟨evs, by rw [Turn.setEnv]; simpa [show t.trace = _ from hev] using hevs⟩
        all_goals exact ⟨[], hev⟩
      obtain ⟨evs, hevs⟩ := hmore
      refine .cut (ev :: evs) hevs (Nat.succ_pos _) ((m.asking op s).setEnv e) ?_ ?_ rfl
      · rw [List.nil_append, run, perform_of_reset op (s := s.setEnv (.reset :: e)) hf rfl, m.asking_setEnv]
        rfl
      · rw [State.setEnv_trace, m.asking_trace]
        simp
    case cons.reply =>
      obtain ⟨ev, hev⟩ := m.act.answered_trace s.work.fail ok rx (m.asking op s)
      rw [m.asking_trace] at hev
      rw [List.cons_append, run, run, perform_setEnv_reply op hf, perform_setEnv_reply op hf]
      cases hr : m.act.answered s.work.fail ok rx (m.asking op s) <;> rw [hr] at hev
      case next t => exact (ih t fun a ha => hl a (List.mem_cons_of_mem _ ha)).step hev
      case abort t => exact .spared [ev] hev (Nat.succ_le_succ (Nat.zero_le _)) rfl
      case hold t => exact absurd hr (m.act.answered_ne_hold _ _ _ _ _)

/-! The level of chip-select where an operation is cut off. -/

/-- Where a successful select is the last pin write of the events `l`, chip-select and its pin are LOW. -/
def State.SelectStays (l : List Event) (t : State) : Prop :=
  ∀ p l₁ l₂, l = l₁ ++ .pin p .low true :: l₂ → (∀ x ∈ l₂, ∀ q lv ok, x ≠ .pin q lv ok) →
    t.chip.csLevel = .low ∧ t.pinLevel p = .low

/-- From `s` to `t` events were shown, and where a successful select is the last pin write of them it stays. -/
def State.Selects (s t : State) : Prop := ∃ l, t.trace = s.trace ++ l ∧ t.SelectStays l

theorem State.Selects.refl (s : State) : s.Selects s := ⟨[], by simp, fun p l₁ l₂ h => by simp at h⟩

theorem State.Selects.of_eq {s t u : State} (h : s.Selects t) (htrace : u.trace = t.trace)
    (hlevel : u.chip.csLevel = t.chip.csLevel) (hpins : u.pins = t.pins) : s.Selects u := by
  obtain ⟨l, hl, hstays⟩ := h
  refine ⟨l, htrace.trans hl, fun p l₁ l₂ hsplit hnone => ?_⟩
  rw [hlevel, State.pinLevel, hpins]
  exact hstays p l₁ l₂ hsplit hnone

/-- The step is no pin write where its event is none. -/
theorem Act.Shows.writesPin {a : Act} {e : Event} (h : a.Shows e) (hnone : ∀ p l ok, e ≠ .pin p l ok) :
    a.writesPin = false := by
  cases h with
  | csHigh0 p ok | csLow fr p ok | csHigh p ok => exact absurd rfl (hnone p _ ok)
  | xfer | wait => rfl

/-- A step made: it is the select itself, or no pin write and leaves both levels. -/
theorem State.Selects.made {s t u : State} {a : Act} {ok : Bool} (h : s.Selects t) (hu : StepMade a ok t u) :
    s.Selects u := by
  obtain ⟨l, hl, hstays⟩ := h
  obtain ⟨ev, hev, hshows, hown⟩ := hu.event
  refine ⟨l ++ [ev], by rw [hev, hl, List.append_assoc], fun p l₁ l₂ hsplit hnone => ?_⟩
  rcases List.eq_nil_or_concat l₂ with rfl | ⟨l₂, last, rfl⟩
  · obtain ⟨-, rfl⟩ : l = l₁ ∧ ev = .pin p .low true := by simpa using List.append_inj' hsplit rfl
    obtain ⟨rfl, rfl⟩ := hown p .low true rfl
    cases hshows
    exact ⟨hu.csLevel, hu.pin⟩
  · obtain ⟨rfl, rfl⟩ : l = l₁ ++ .pin p .low true :: l₂ ∧ ev = last := by
      simpa using List.append_inj' (hsplit.trans (by simp : _ = (l₁ ++ .pin p .low true :: l₂) ++ [last])) rfl
    have hquiet := hshows.writesPin (hnone ev (by simp))
    obtain ⟨hlow, hpin⟩ := hstays p l₁ l₂ rfl fun x hx => hnone x (by simp [hx])
    refine ⟨by rw [hu.csLevel, Act.levelAfter_of_noPin hquiet, hlow], ?_⟩
    by_cases hp : p = t.handle.csPin
    · rw [hp, hu.pin, Act.levelAfter_of_noPin hquiet, ← hp, hpin]
    · rw [hu.others p hp, hpin]

theorem run_selects (op : Op) {ms : List MStep} (hms : ∀ m ∈ ms, m.WellPlaced) (s : State) :
    s.Selects (run op ms s).state := by
  have hrun := run_holds (op := op) (inv := fun ms t => (∀ m ∈ ms, m.WellPlaced) ∧ s.Selects t) (failed := s.Selects)
    (held := s.Selects) (fun m ms t ht => ?_) (⟨hms, .refl s⟩ : _ ∧ s.Selects s)
  · generalize run op ms s = r at hrun
    cases r
    case finished t => exact hrun.2
    all_goals exact hrun
  · obtain ⟨hplaced, ht⟩ := ht
    obtain ⟨hm, hms⟩ := List.forall_mem_cons.mp hplaced
    refine perform_holds hm fun r hr => ?_
    cases hr with
    | skipped => exact ⟨hms, ht⟩
    | passes ok u hu => exact ⟨hms, ht.made hu⟩
    | aborts ok u hu => exact ht.made hu
    | stands u ho => exact ht.of_eq ho.trace (by rw [ho.chip]) ho.pins
    | reset u ho => exact ht.of_eq ho.trace (by rw [State.applyReset_chip, ho.chip]) ho.pins

/-! From the request to the response. -/

/-- In an environment that answers every call the response comes after the micro-program's events. -/
theorem conclude_trace_of_answered {i : Instr} {s : State} (hs : s.Answered) :
    ∃ st v sr d, (conclude (opOf i) (planOf i s).result (run (opOf i) (planOf i s).steps (s.begun i))).trace =
      (run (opOf i) (planOf i s).steps (s.begun i)).state.trace ++ [.rsp st v sr d] := by
  have hanswered := run_restsHigh (i := i) hs
  generalize run (opOf i) (planOf i s).steps (s.begun i) = r at hanswered
  cases r with
  | finished t => rw [conclude, State.respondOk_eq]; exact ⟨_, _, _, _, State.respond_trace _ _ _ _ _⟩
  | failed t => exact ⟨_, _, _, _, t.raiseCapabilityFailure_trace _⟩
  | held t => exact hanswered.elim

theorem State.begun_trace (s : State) (i : Instr) : (s.begun i).trace = s.trace ++ [.req i] :=
  (s.begun_prepared i).trace

/-- Settles O14: the two runs take the same answers alike as long as there are any; then the reset event strikes at the
next call or wait, if there is one. -/
theorem resetCutsAnOperationOff : Obligations.ResetCutsAnOperationOff := by
  unfold Obligations.ResetCutsAnOperationOff
  intro i s l e hv hl he
  have hs : s = s.setEnv (l ++ .reset :: e) := by rw [← he]; rfl
  have hu : exec i (s.setEnv l) = .next (conclude (opOf i) (planOf i s).result
      (run (opOf i) (planOf i s).steps ((s.begun i).setEnv l))) := by
    rw [exec_valid (by rwa [planOf_setEnv]), planOf_setEnv, State.begun_setEnv]
  have ht : exec i s = .next (conclude (opOf i) (planOf i s).result
      (run (opOf i) (planOf i s).steps ((s.begun i).setEnv (l ++ .reset :: e)))) := by
    rw [exec_valid hv, ← State.begun_setEnv, ← hs]
  obtain ⟨st, v, sr, d, hrsp⟩ := conclude_trace_of_answered (i := i) (s := s.setEnv l) hl
  rw [planOf_setEnv, State.begun_setEnv] at hrsp
  have hselects := run_selects (opOf i) (wellPlanned_planOf i s).wellPlaced ((s.begun i).setEnv (l ++ .reset :: e))
  have htrace : ∀ {ev t}, t = (s.begun i).trace ++ ev → t ++ [.rsp st v sr d] =
      s.trace ++ (.req i :: ev ++ [.rsp st v sr d]) := by
    rintro ev t rfl
    rw [s.begun_trace]
    simp
  cases run_cutOff (opOf i) (planOf i s).steps (s.begun i) e hl with
  | spared ev hev hlen hr =>
    refine ⟨_, _, ev, st, v, sr, d, ht, hu, hrsp.trans (htrace hev), fun h => absurd hlen (Nat.not_le.mpr h),
      fun _ => ?_⟩
    rw [hr, conclude_setEnv]
    exact ⟨rfl, rfl, rfl, rfl⟩
  | cut ev hev hlen u hr hu' henv =>
    refine ⟨_, _, ev, st, v, sr, d, ht, hu, hrsp.trans (htrace hev), fun _ => ?_,
      fun h => absurd h (Nat.not_le.mpr hlen)⟩
    rw [hr] at hselects ⊢
    obtain ⟨l', hl', hstays⟩ := hselects
    obtain rfl : ev.take l.length = l' := List.append_cancel_left (hu'.symm.trans hl')
    refine ⟨?_, rfl, rfl, rfl, henv, hstays⟩
    rw [conclude, State.applyReset_trace, hu', s.begun_trace]
    simp

end Sys2Proof.Machine
end

section
/-! PROOFS. Marks stay for the rest of a run (log 22), and a lost chip stays lost (log 16), whatever an operation and
its environment do. -/

namespace Sys2Proof.Machine

/-- From `s` to `t` no mark is taken back, and a lost chip stays lost. -/
structure MarksKept (s t : State) : Prop where
  lost      : s.chip.lost = true → t.chip.lost = true
  sleepRule : s.audit.sleepRule = true → t.audit.sleepRule = true
  readRule  : s.audit.readRule = true → t.audit.readRule = true

theorem MarksKept.of_eq {s t : State} (hl : t.chip.lost = s.chip.lost) (hs : t.audit.sleepRule = s.audit.sleepRule)
    (hr : t.audit.readRule = s.audit.readRule) : MarksKept s t :=
  ⟨hl.trans, hs.trans, hr.trans⟩

theorem MarksKept.refl (s : State) : MarksKept s s := ⟨id, id, id⟩

theorem MarksKept.trans {s t u : State} (h : MarksKept s t) (k : MarksKept t u) : MarksKept s u :=
  ⟨k.lost ∘ h.lost, k.sleepRule ∘ h.sleepRule, k.readRule ∘ h.readRule⟩

/-! The chip and the wire. -/

theorem State.loseChip_marksKept (s : State) : MarksKept s s.loseChip := ⟨fun _ => rfl, id, id⟩

theorem State.breakSleepRule_marksKept (s : State) (w : Bool) : MarksKept s (s.breakSleepRule w) :=
  ⟨fun _ => rfl, fun h => by simp [State.breakSleepRule, State.loseChip, h], id⟩

theorem State.breakFrameRule_marksKept (s : State) : MarksKept s s.breakFrameRule := ⟨fun _ => rfl, id, id⟩

theorem State.frameEffect_marksKept (s : State) (c : Command) : MarksKept s (s.frameEffect c) := by
  cases c with
  | rdsr | wrsr =>
    simp only [State.frameEffect]
    split
    · exact ⟨id, id, fun _ => rfl⟩
    · exact ⟨id, id, id⟩
  | _ => exact ⟨id, id, id⟩

theorem State.cutEffect_marksKept (s : State) (c : Command) : MarksKept s (s.cutEffect c) := by
  cases c with
  | rdsr | wrsr =>
    simp only [State.cutEffect]
    split
    · exact ⟨id, id, fun _ => rfl⟩
    · exact ⟨id, id, id⟩
  | _ => exact ⟨id, id, id⟩

theorem State.ifLost_marksKept (s : State) : MarksKept s s.ifLost := by
  unfold State.ifLost
  split
  · exact s.loseChip_marksKept
  · exact .refl s

theorem State.takeFrame_marksKept {effect : State → Command → State} (he : ∀ s c, MarksKept s (effect s c)) (s : State)
    (bytes : List Byte) : MarksKept s (s.takeFrame effect bytes) := by
  unfold State.takeFrame
  split
  · exact .refl s
  · split
    · exact s.breakFrameRule_marksKept
    · refine .trans ?_ (State.ifLost_marksKept _)
      split
      · exact (s.breakSleepRule_marksKept _).trans (he _ _)
      · exact he s _

theorem State.redrawFrame_marksKept (s : State) (bytes : List Byte) : MarksKept s (s.redrawFrame bytes) := by
  unfold State.redrawFrame
  split
  · exact .refl s
  · exact (s.cutEffect_marksKept _).trans (State.ifLost_marksKept _)

theorem State.endFrame_marksKept (s : State) (p : Pending) (ok : Bool) : MarksKept s (s.endFrame p ok) := by
  unfold State.endFrame
  split
  · exact s.redrawFrame_marksKept _
  · split
    · exact s.takeFrame_marksKept State.cutEffect_marksKept _
    · exact s.takeFrame_marksKept State.frameEffect_marksKept _

theorem State.joinFrame_marksKept (s : State) : MarksKept s s.joinFrame := by
  unfold State.joinFrame
  split
  · exact .refl s
  · split
    · exact .refl s
    · exact s.loseChip_marksKept

theorem State.beginFrame_marksKept (s : State) (fr : List Byte) : MarksKept s (s.beginFrame fr) := by
  unfold State.beginFrame
  split
  · exact (s.breakSleepRule_marksKept _).trans ⟨id, id, id⟩
  · exact .refl s

theorem State.doubtHigh_marksKept (s : State) (ok : Bool) : MarksKept s (s.doubtHigh ok) := by
  unfold State.doubtHigh
  split
  · exact s.loseChip_marksKept.trans ⟨id, id, id⟩
  · exact .refl s

theorem State.driveLow_marksKept (s : State) (ok : Bool) (fr : List Byte) : MarksKept s (s.driveLow ok fr) :=
  (s.joinFrame_marksKept.trans (s.joinFrame.beginFrame_marksKept fr)).trans ⟨id, id, id⟩

theorem State.driveHigh_marksKept (s : State) (ok : Bool) : MarksKept s (s.driveHigh ok) := by
  unfold State.driveHigh
  cases s.chip.pending with
  | none => exact (s.doubtHigh_marksKept ok).trans ⟨id, id, id⟩
  | some p => exact (s.endFrame_marksKept p ok).trans ⟨id, id, id⟩

theorem State.pinWrite_marksKept (s : State) (l : Level) (ok : Bool) (fr : List Byte) :
    MarksKept s (s.pinWrite l ok fr) := by
  have hwritten : MarksKept s (s.pinWritten l ok) := ⟨id, id, id⟩
  cases l with
  | low => exact hwritten.trans (State.driveLow_marksKept _ ok fr)
  | high => exact hwritten.trans (State.driveHigh_marksKept _ ok)

theorem State.transfer_marksKept (s : State) (x : Xfer) (ok : Bool) (rx : List Byte) :
    MarksKept s (s.transfer x ok rx) := by
  have htakes : MarksKept (s.rxStored x ok rx) ((s.rxStored x ok rx).chipTakes x.tx ok) := by
    unfold State.chipTakes
    split
    · exact ⟨id, id, id⟩
    · exact State.breakFrameRule_marksKept _
  have hstored : MarksKept s (s.rxStored x ok rx) := by
    rw [State.rxStored_eq]
    exact ⟨id, id, id⟩
  rw [State.transfer_eq]
  exact (hstored.trans htakes).trans ⟨id, id, id⟩

/-! A micro-program, and an instruction. -/

theorem Act.answered_marksKept (a : Act) (failed ok : Bool) (rx : List Byte) (u : State) :
    MarksKept u (a.answered failed ok rx u).state := by
  cases a with
  | csHigh0 => simp only [Act.answered]; split <;> exact u.pinWrite_marksKept .high ok []
  | csLow fr => exact (u.pinWrite_marksKept .low ok fr).trans ⟨id, id, id⟩
  | xfer x => exact u.transfer_marksKept x ok rx
  | csHigh =>
    simp only [Act.answered]
    split
    · exact (u.pinWrite_marksKept .high ok []).trans ⟨id, id, id⟩
    · exact u.pinWrite_marksKept .high ok []
  | wait us => exact ⟨id, id, id⟩

theorem Act.ticked_marksKept (a : Act) (u : State) : MarksKept u (a.ticked u).state := by
  cases a with
  | wait us => simp only [Act.ticked]; split <;> exact ⟨id, id, id⟩
  | _ => exact .refl u

theorem perform_marksKept (op : Op) (m : MStep) (s : State) : MarksKept s (perform op m s).state := by
  rcases m.skips_or_asks s with ⟨x, hx, hfail⟩ | hf
  · rw [perform_skipped op hx hfail]
    exact .refl s
  have hasking : MarksKept s (m.asking op s) := by
    obtain ⟨k, st, act⟩ := m
    cases act <;> exact ⟨id, id, id⟩
  have hleft : ∀ e, MarksKept s ((m.asking op s).setEnv e) := fun e => hasking.trans ⟨id, id, id⟩
  rw [perform_eq_turn op hf]
  rcases (m.asking op s).ask_cases with ⟨ok, rx, e, h, -⟩ | ⟨h, -⟩ | ⟨e, h, -⟩ | ⟨e, h, -⟩ <;> rw [h]
  · exact (hleft e).trans (m.act.answered_marksKept _ ok rx _)
  · exact hasking
  · exact (hleft e).trans (m.act.ticked_marksKept _)
  · exact (hleft e).trans ⟨id, id, id⟩

theorem run_marksKept (op : Op) (ms : List MStep) (s : State) : MarksKept s (run op ms s).state := by
  induction ms generalizing s with
  | nil => exact .refl s
  | cons m ms ih =>
    have hm := perform_marksKept op m s
    rw [run]
    cases hp : perform op m s <;> rw [hp] at hm
    case next t => exact hm.trans (ih t)
    all_goals exact hm

theorem conclude_marksKept (op : Op) (result : State → Result) (r : Run) :
    MarksKept r.state (conclude op result r) := by
  cases r with
  | finished s =>
    rw [conclude, State.respondOk_eq]
    exact ⟨id, id, id⟩
  | failed s =>
    have hresidue : MarksKept s (s.residue op) := by
      unfold State.residue
      split <;> exact ⟨id, id, id⟩
    have hforget : MarksKept (s.residue op) (s.residue op).forgetLevel := by
      unfold State.forgetLevel
      split <;> exact ⟨id, id, id⟩
    exact (hresidue.trans hforget).trans ⟨id, id, id⟩
  | held s => exact .refl s

/-- An instruction keeps the marks that stand once its request is accepted, in any environment. -/
theorem exec_marksKept (i : Instr) (s : State) : ∃ t, exec i s = .next t ∧ MarksKept (s.accept i) t := by
  cases hv : (planOf i s).valid with
  | false => exact ⟨_, exec_eq i s, by rw [runPlan_invalid _ _ _ hv]; exact ⟨id, id, id⟩⟩
  | true =>
    have hb := s.begun_prepared i
    have hbegun : MarksKept (s.accept i) (s.begun i) := .of_eq (by rw [hb.chip]) (by rw [hb.audit]) (by rw [hb.audit])
    exact ⟨_, exec_valid hv, (hbegun.trans (run_marksKept _ _ _)).trans (conclude_marksKept _ _ _)⟩

/-- While a `wake` is owed, an operation that is none is marked when it is accepted (log 22). -/
theorem exec_marked_of_mustWake {i : Instr} {s : State} (h : s.chip.mustWake = true) (hi : (opOf i).wakes = false) :
    ∃ t, exec i s = .next t ∧ t.audit.sleepRule = true := by
  obtain ⟨t, hex, hkept⟩ := exec_marksKept i s
  exact ⟨t, hex, hkept.sleepRule (by simp [h, hi])⟩

end Sys2Proof.Machine
end

section
/-! PROOFS. What a frame all of whose calls succeed leaves of the marks, on any chip with no frame under way
(spec/70_reset_and_hazards.md R191, R192, spec/20_memory.md R49; log 16, log 22). -/

namespace Sys2Proof.Machine

/-- A READ frame: the one that sets AFTER_READ (spec/20_memory.md R44). -/
def Command.isRead : Command → Bool
  | .read _ _ => true
  | .wren | .wrdi | .rdsr | .wrsr _ | .write _ _ | .sleep | .wake => false

/-- A status command, which may not follow a READ frame (spec/93_implementation_defined.md U4). -/
def Command.isStatus : Command → Bool
  | .rdsr | .wrsr _ => true
  | .wren | .wrdi | .read _ _ | .write _ _ | .sleep | .wake => false

/-- The marks that frames set, and what they go by, are the same. -/
structure SameMarks (s t : State) : Prop where
  sleepRule  : t.audit.sleepRule = s.audit.sleepRule
  readRule   : t.audit.readRule = s.audit.readRule
  wakeFailed : t.audit.wakeFailed = s.audit.wakeFailed

theorem SameMarks.trans {s t u : State} (h : SameMarks s t) (k : SameMarks t u) : SameMarks s u :=
  ⟨k.sleepRule.trans h.sleepRule, k.readRule.trans h.readRule, k.wakeFailed.trans h.wakeFailed⟩

/-! The frame at its end. -/

section
variable (s : State) (c : Command)

theorem State.frameEffect_readRule :
    (s.frameEffect c).audit.readRule = (s.audit.readRule || (s.chip.afterRead && c.isStatus)) := by
  cases c with
  | rdsr | wrsr => cases h : s.chip.afterRead <;> simp [State.frameEffect, State.breakReadRule, Command.isStatus, h]
  | _ => simp [State.frameEffect, Command.isStatus]

theorem State.frameEffect_wakeFailed : (s.frameEffect c).audit.wakeFailed = s.audit.wakeFailed := by
  cases c with
  | rdsr | wrsr => simp only [State.frameEffect]; split <;> rfl
  | _ => rfl

theorem State.frameEffect_afterRead : (s.frameEffect c).chip.afterRead = c.isRead := by
  cases c with
  | wrsr => simp only [State.frameEffect]; split <;> rfl
  | _ => rfl

end

/-- Losing a lost chip again changes no mark and not AFTER_READ. -/
theorem State.ifLost_marks (s : State) :
    s.ifLost.chip.lost = s.chip.lost ∧ s.ifLost.chip.afterRead = s.chip.afterRead ∧ s.ifLost.audit = s.audit := by
  unfold State.ifLost
  split
  · next h => exact ⟨h.symm, rfl, rfl⟩
  · exact ⟨rfl, rfl, rfl⟩

/-- A frame of `c` that the chip takes as a whole. -/
structure State.TakesFrame (s : State) (c : Command) (t : State) : Prop where
  lost       : t.chip.lost = (s.chip.lost || s.chip.forbids c)
  sleepRule  : t.audit.sleepRule =
    (s.audit.sleepRule || (s.chip.forbids c && !(c == .wake && s.audit.wakeFailed)))
  readRule   : t.audit.readRule = (s.audit.readRule || (s.chip.afterRead && c.isStatus))
  wakeFailed : t.audit.wakeFailed = s.audit.wakeFailed
  afterRead  : t.chip.afterRead = c.isRead

theorem State.wholeFrame_takesFrame (s : State) {c : Command} (hf : c.Fits) :
    s.TakesFrame c (s.wholeFrame (content c.xfers)) := by
  have hdecode := chipDecode_xfers hf
  have hne : content c.xfers ≠ [] := fun h => by rw [h] at hdecode; cases hdecode
  set u := if s.chip.forbids c then s.breakSleepRule (c == .wake) else s with hu
  have hwhole : s.wholeFrame (content c.xfers) = (u.frameEffect c).ifLost := by
    rw [State.wholeFrame, State.takeFrame, if_neg hne, hdecode]
  obtain ⟨hlost, hread, haudit⟩ := (u.frameEffect c).ifLost_marks
  rw [hwhole]
  refine ⟨?_, ?_, ?_, ?_, hread.trans (u.frameEffect_afterRead c)⟩
  · rw [hlost, State.frameEffect_lost, hu]
    cases s.chip.forbids c <;> simp [State.breakSleepRule]
  · rw [haudit, State.frameEffect_sleepRule, hu]
    cases s.chip.forbids c <;> simp [State.breakSleepRule, State.loseChip]
  · rw [haudit, State.frameEffect_readRule, hu]
    cases s.chip.forbids c <;> rfl
  · rw [haudit, State.frameEffect_wakeFailed, hu]
    cases s.chip.forbids c <;> rfl

/-! The frame along its calls. -/

/-- A select within the wake delay breaks the rule at once (log 17). -/
def Chip.delayed (c : Chip) : Bool := decide (0 < c.recovery)

theorem Chip.forbids_of_delayed {c : Chip} (h : c.delayed = true) (cmd : Command) : c.forbids cmd = true := by
  cases cmd <;> simp_all [Chip.forbids, Chip.delayed]

/-- A frame of `c` begun at `s` on a chip with no frame under way, the bytes `b` of it sent, all calls having
succeeded. -/
structure State.Sends (s : State) (c : Command) (b : List Byte) (t : State) : Prop extends StepFrame s t where
  fail       : t.work.fail = false
  level      : t.chip.csLevel = .low
  pending    : t.chip.pending = some ⟨b, false, false⟩
  afterRead  : t.chip.afterRead = s.chip.afterRead
  forbids    : t.chip.forbids c = s.chip.forbids c
  lost       : t.chip.lost = (s.chip.lost || s.chip.delayed)
  sleepRule  : t.audit.sleepRule =
    (s.audit.sleepRule || (s.chip.delayed && !(c == .wake && s.audit.wakeFailed)))
  readRule   : t.audit.readRule = s.audit.readRule
  wakeFailed : t.audit.wakeFailed = s.audit.wakeFailed

/-- The begin of a frame, as far as marks go by it. -/
theorem State.beginFrame_marks (s : State) {c : Command} (hf : c.Fits) :
    let t := s.beginFrame (content c.xfers)
    t.chip.afterRead = s.chip.afterRead ∧ t.chip.forbids c = s.chip.forbids c ∧
      t.chip.lost = (s.chip.lost || s.chip.delayed) ∧
      t.audit.sleepRule = (s.audit.sleepRule || (s.chip.delayed && !(c == .wake && s.audit.wakeFailed))) ∧
      t.audit.readRule = s.audit.readRule ∧ t.audit.wakeFailed = s.audit.wakeFailed := by
  simp only [State.beginFrame, chipDecode_xfers hf]
  split
  · next h =>
    have hd : s.chip.delayed = true := decide_eq_true h
    refine ⟨rfl, ?_, by simp [hd, State.breakSleepRule, State.restartDelay], ?_, rfl, rfl⟩
    · rw [Chip.forbids_of_delayed hd, Chip.forbids_of_delayed rfl]
    · simp [hd, State.breakSleepRule, State.restartDelay, State.loseChip]
  · next h =>
    have hd : s.chip.delayed = false := decide_eq_false h
    simp [hd]

theorem selected_sends {s : State} {c : Command} (hs : s.CallsSucceed) (hp : s.chip.pending = none) (hf : c.Fits)
    (op : Op) (k : Fin 3) : s.Sends c [] (s.selected op k (content c.xfers)) := by
  have hframe : StepFrame s (s.selected op k (content c.xfers)) :=
    .of_next (m := ⟨k, .csLow, .csLow _⟩) rfl (perform_csLow hs.answered op k (content c.xfers))
  set v := (((s.setSeq (.busy op k .csLow)).setFail false).setEnv s.env.tail).pinWritten .low true with hv
  have hsel : s.selected op k (content c.xfers) = (v.driveLow true (content c.xfers)).setFail false := by
    rw [State.selected, hs.headOk]
    rfl
  have hjoin : v.joinFrame = v := State.joinFrame_of_none hp
  obtain ⟨hread, hforbids, hlost, hsleep, hreadRule, hwake⟩ := v.beginFrame_marks hf
  rw [hsel, State.driveLow, hjoin] at hframe ⊢
  exact ⟨hframe, rfl, rfl, rfl, hread, (Chip.forbids_onWire _ .low _ c).trans hforbids, hlost, hsleep, hreadRule, hwake⟩

theorem State.Sends.transferred {s t : State} {c : Command} {b : List Byte} (h : s.Sends c b t) (hs : s.CallsSucceed)
    (op : Op) (k : Fin 3) {st : Step} (hst : st = .xfer0 ∨ st = .xfer1) (x : Xfer) :
    s.Sends c (b ++ x.tx) (t.transferred op k st x) := by
  have ht : t.CallsSucceed := hs.of_subset h.env
  have hframe : StepFrame t (t.transferred op k st x) :=
    .of_next (m := ⟨k, st, .xfer x⟩) hst (perform_xfer ht.answered op k st x h.fail)
  have hchip : (t.transferred op k st x).chip = t.chip.onWire .low (some ⟨b ++ x.tx, false, false⟩) := by
    rw [(State.transferred_onWire (c := t.chip) (by rw [Chip.onWire, ← h.level, ← h.pending]) op k st x).1, ht.headOk]
    rfl
  have haudit : (t.transferred op k st x).audit = t.audit := by
    rw [State.transferred, State.transfer_eq, State.rxStored_eq, State.chipTakes]
    simp [h.level]
  obtain ⟨-, -, -, -, -, -, -, hwork, -⟩ := t.transferred_frame op k st x
  have hfail : (t.transferred op k st x).work.fail = false := by rw [hwork, ht.headOk]; rfl
  exact ⟨h.toStepFrame.trans hframe, hfail, by rw [hchip]; rfl, by rw [hchip]; rfl, by rw [hchip]; exact h.afterRead,
    by rw [hchip, Chip.forbids_onWire]; exact h.forbids, by rw [hchip]; exact h.lost, by rw [haudit]; exact h.sleepRule,
    by rw [haudit]; exact h.readRule, by rw [haudit]; exact h.wakeFailed⟩

/-- The chip has taken a whole frame of `c` begun at `s`. -/
structure State.FrameMarks (s : State) (c : Command) (t : State) : Prop extends StepFrame s t, s.TakesFrame c t where
  pending : t.chip.pending = none

theorem State.Sends.deselected {s t : State} {c : Command} (h : s.Sends c (content c.xfers) t) (hs : s.CallsSucceed)
    (hf : c.Fits) (op : Op) (k : Fin 3) :
    perform op ⟨k, .csHigh, .csHigh⟩ t = .next (t.deselected op k .csHigh) ∧
      s.FrameMarks c (t.deselected op k .csHigh) := by
  have ht : t.CallsSucceed := hs.of_subset h.env
  have hnext : perform op ⟨k, .csHigh, .csHigh⟩ t = .next (t.deselected op k .csHigh) := by
    rw [perform_csHigh ht.answered, h.fail, ht.headOk]
    rfl
  set v := ((t.setSeq (.busy op k .csHigh)).setEnv t.env.tail).pinWritten .high true with hv
  have hdeselected : t.deselected op k .csHigh =
      (v.wholeFrame (content c.xfers)).setChip ((v.wholeFrame (content c.xfers)).chip.onWire .high none) := by
    have hpending : v.chip.pending = some ⟨content c.xfers, false, false⟩ := h.pending
    rw [State.deselected, ht.headOk, State.pinWrite_eq]
    simp only [← hv, State.driveHigh, hpending]
    rfl
  have htakes := v.wholeFrame_takesFrame hf
  have hdelayed : (s.chip.delayed || s.chip.forbids c) = s.chip.forbids c := by
    cases hd : s.chip.delayed
    · rfl
    · rw [Chip.forbids_of_delayed hd]
      rfl
  refine ⟨hnext, h.toStepFrame.trans (.of_next (m := ⟨k, .csHigh, .csHigh⟩) rfl hnext), ?_, by rw [hdeselected]; rfl⟩
  rw [hdeselected]
  refine ⟨htakes.lost.trans ?_, htakes.sleepRule.trans ?_, htakes.readRule.trans ?_,
    htakes.wakeFailed.trans h.wakeFailed, htakes.afterRead⟩
  · rw [show v.chip = t.chip from rfl, h.lost, h.forbids, Bool.or_assoc, hdelayed]
  · rw [show v.chip = t.chip from rfl, show v.audit.sleepRule = t.audit.sleepRule from rfl,
      show v.audit.wakeFailed = t.audit.wakeFailed from rfl, h.sleepRule, h.wakeFailed, h.forbids, Bool.or_assoc,
      ← Bool.and_or_distrib_right, hdelayed]
  · rw [show v.chip = t.chip from rfl, show v.audit.readRule = t.audit.readRule from rfl, h.readRule, h.afterRead]

/-- From a place in a frame to its end. -/
theorem run_xferSteps_marks {s : State} {c : Command} (hs : s.CallsSucceed) (hf : c.Fits) (op : Op) (k : Fin 3)
    (rest : List Xfer) {st : Step} (hst : st = .xfer0 ∨ st = .xfer1) {t : State} {sent : List Xfer}
    (hall : sent ++ rest = c.xfers) (h : s.Sends c (content sent) t) :
    ∃ u, run op (xferSteps k st rest ++ [⟨k, .csHigh, .csHigh⟩]) t = .finished u ∧ s.FrameMarks c u := by
  induction rest generalizing st t sent with
  | nil =>
    rw [List.append_nil] at hall
    obtain ⟨hnext, hmarks⟩ := State.Sends.deselected (hall ▸ h) hs hf op k
    exact ⟨_, by simp only [xferSteps, List.nil_append, run, hnext], hmarks⟩
  | cons x rest ih =>
    simp only [xferSteps, List.cons_append, run, perform_xfer (hs.of_subset h.env).answered op k st x h.fail]
    exact ih (.inr rfl) (sent := sent ++ [x]) (by rw [← hall, List.append_assoc]; rfl)
      (content_append_singleton sent x ▸ h.transferred hs op k hst x)

/-- A frame all of whose calls succeed, on any chip with no frame under way. -/
theorem run_frame_marks {s : State} {c : Command} (hs : s.CallsSucceed) (hp : s.chip.pending = none) (hf : c.Fits)
    (op : Op) (k : Fin 3) : ∃ t, run op (frameSteps k c.xfers) s = .finished t ∧ s.FrameMarks c t := by
  simp only [frameSteps, run, perform_csLow hs.answered op k (content c.xfers)]
  exact run_xferSteps_marks hs hf op k c.xfers (.inl rfl) (sent := []) rfl (selected_sends hs hp hf op k)

end Sys2Proof.Machine
end

section
/-! PROOFS. Frames the chip has no meaning for, and status reads right after a READ frame: what the host broke is marked
at once (spec/70_reset_and_hazards.md R191, R192, spec/93_implementation_defined.md U3, U4; log 16, log 17, log 22). -/

namespace Sys2Proof.Machine

/-! The first frame of a micro-program. -/

/-- The command of an instruction's first frame: Write-Enable where its own stands in a bracket (spec/40_framing.md
R96). -/
def firstCommand (i : Instr) : Command :=
  match opOf i with
  | .write | .writeStatusRegister => .wren
  | .cmdWren | .cmdWrdi | .cmdRdsr | .cmdWrsr | .cmdRead | .cmdWrite | .cmdSleep | .cmdWake | .init | .writeEnable
  | .writeDisable | .read | .sleep | .wake | .readStatusRegister | .isWriteEnabled | .isWriteProtected
  | .isBlockProtected => commandOf i

/-- What follows the first frame, that of `first`, in a micro-program with the command `c`. -/
inductive RestShape (c : Command) : Command → List MStep → Prop where
  | none : RestShape c c []
  | wait (us : Nat) : RestShape c c [waitStep us]
  | bracket (hsleep : c ≠ .sleep) (hread : c.isRead = false) :
      RestShape c .wren (frameSteps 1 c.xfers ++ frameSteps 2 Command.wrdi.xfers)

/-- `init`'s step before its frame. -/
def leadSteps (op : Op) : List MStep := if op = .init then [⟨0, .csHigh0, .csHigh0⟩] else []

theorem planOf_firstFrame (i : Instr) (s : State) :
    ∃ rest, RestShape (commandOf i) (firstCommand i) rest ∧
      (planOf i s).steps = leadSteps (opOf i) ++ (frameSteps 0 (firstCommand i).xfers ++ rest) := by
  cases i with
  | write h buf addr len data => exact ⟨_, .bracket nofun rfl, rfl⟩
  | writeStatusRegister h v => exact ⟨_, .bracket nofun rfl, rfl⟩
  | sleep h => exact ⟨_, .wait 100, rfl⟩
  | wake h => exact ⟨_, .wait 400, rfl⟩
  | _ => exact ⟨_, .none, rfl⟩

/-- The first frame of an operation that passes its check does not run past the array. -/
theorem firstCommand_fits {i : Instr} {s : State} (hv : (planOf i s).valid = true) : (firstCommand i).Fits := by
  cases i with
  | write => trivial
  | writeStatusRegister => trivial
  | _ => exact commandOf_fits hv nofun

theorem firstCommand_beq_wake (i : Instr) : (firstCommand i == .wake) = (opOf i).wakes := by
  cases i <;> rfl

theorem Op.wakes_iff (op : Op) : op.wakes = true ↔ op = .wake ∨ op = .cmdWake := by
  cases op <;> decide

theorem leadSteps_of_ne {op : Op} (h : op ≠ .init) : leadSteps op = [] := if_neg h

/-- `init`'s pin write HIGH, answered with success, on a chip with no frame under way. -/
theorem State.deselected_noFrame {s : State} (hp : s.chip.pending = none) (hok : headOk s.env = true) (op : Op)
    (k : Fin 3) (st : Step) :
    (s.deselected op k st).chip = s.chip.onWire .high none ∧ SameMarks s (s.deselected op k st) := by
  have hpending : (((s.setSeq (.busy op k st)).setEnv s.env.tail).pinWritten .high true).chip.pending = none := hp
  rw [State.deselected, hok, State.pinWrite_eq]
  simp only [State.driveHigh, hpending, State.doubtHigh_true]
  exact ⟨rfl, rfl, rfl, rfl⟩

/-- The instruction taken up at `s` comes to its first frame, nothing having gone wrong, at `u`. -/
structure State.AtFirstFrame (s : State) (i : Instr) (u : State) : Prop where
  succeed : u.CallsSucceed
  chip    : u.chip = s.chip.onWire u.chip.csLevel none
  marks   : SameMarks (s.accept i) u

theorem run_to_firstFrame {i : Instr} {s : State} (hs : s.CallsSucceed) (hp : s.chip.pending = none) :
    ∃ u, s.AtFirstFrame i u ∧
      ∀ ms, run (opOf i) (leadSteps (opOf i) ++ ms) (s.begun i) = run (opOf i) ms u := by
  have hb := s.begun_prepared i
  have hmarks : SameMarks (s.accept i) (s.begun i) :=
    ⟨by rw [hb.audit], by rw [hb.audit], by rw [hb.audit]⟩
  by_cases hi : opOf i = .init
  · obtain ⟨hchip, hsame⟩ := State.deselected_noFrame (s := s.begun i) (by rw [s.begun_chip]; exact hp)
      (hs.begun i).headOk (opOf i) 0 .csHigh0
    refine ⟨(s.begun i).deselected (opOf i) 0 .csHigh0, ⟨(hs.begun i).deselected _ _ _, ?_, hmarks.trans hsame⟩,
      fun ms => ?_⟩
    · rw [hchip, s.begun_chip]
      rfl
    · rw [leadSteps, if_pos hi]
      exact run_csHigh0 (hs.begun i) (opOf i) 0 .csHigh0 ms
  · refine ⟨s.begun i, ⟨hs.begun i, ?_, hmarks⟩, fun ms => by rw [leadSteps_of_ne hi]; rfl⟩
    rw [s.begun_chip, Chip.onWire, ← hp]

/-! A micro-program all of whose calls succeed finishes. -/

/-- A call answered with success, or a wait that ends, where no call of the frame has failed. -/
theorem Act.answered_true (a : Act) {failed : Bool} (hf : a.inside = true → failed = false) (rx : List Byte)
    (u : State) : ∃ t, a.answered failed true rx u = .next t ∧ (a.leavesOpen = true → t.work.fail = false) := by
  cases a with
  | csHigh0 | wait => exact ⟨_, rfl, nofun⟩
  | csHigh => exact ⟨_, by rw [hf rfl]; rfl, nofun⟩
  | csLow fr => exact ⟨_, rfl, fun _ => rfl⟩
  | xfer x => exact ⟨_, rfl, fun _ => congrArg Work.fail (u.transfer_frame x true rx).work⟩

theorem run_finishes (op : Op) {ms : List MStep} (hw : WellPlanned ms) {s : State} (hs : s.CallsSucceed)
    (hf : frameOpen ms = true → s.work.fail = false) : ∃ t, run op ms s = .finished t := by
  induction ms generalizing s with
  | nil => exact ⟨s, rfl⟩
  | cons m ms ih =>
    obtain ⟨hm, hopen, hms⟩ := hw
    have hasking : (m.asking op s).CallsSucceed := fun a ha => hs a (m.asking_env op s ▸ ha)
    have hperform := perform_eq_turn op (m := m) fun x hx => hf (by rw [frameOpen, hx]; rfl)
    rw [State.ask_answered hasking.answered, hasking.headOk, Reply.turn] at hperform
    obtain ⟨t, ht, hfail⟩ := m.act.answered_true hf (headRx (m.asking op s).env)
      ((m.asking op s).setEnv (m.asking op s).env.tail)
    rw [ht] at hperform
    rw [run, hperform]
    exact ih hms (hs.of_subset (StepFrame.of_next hm hperform).env) fun ho => hfail (hopen.trans ho)

/-- An instruction whose check passes, when every call succeeds: its micro-program finishes, and the answer is OK. -/
theorem exec_finishes {i : Instr} {s : State} (hs : s.CallsSucceed) (hv : (planOf i s).valid = true) :
    ∃ t, run (opOf i) (planOf i s).steps (s.begun i) = .finished t ∧
      exec i s = .next (t.completed i ((planOf i s).result t)) := by
  obtain ⟨t, hrun⟩ := run_finishes (opOf i) (wellPlanned_planOf i s) (hs.begun i) fun ho => by
    rw [planOf_frameOpen] at ho
    cases ho
  exact ⟨t, hrun, exec_finished hv hrun⟩

theorem State.completed_ok (t : State) (i : Instr) (r : Result) :
    ∃ rsp, (t.completed i r).response = some rsp ∧ rsp.status = .ok := by
  cases r <;> exact ⟨_, rfl, rfl⟩

@[simp] theorem State.completed_readRule (t : State) (i : Instr) (r : Result) :
    (t.completed i r).audit.readRule = t.audit.readRule := by
  cases r <;> rfl

/-! Frames the chip has no meaning for. -/

/-- After a Wake frame comes the wait at most. -/
theorem RestShape.of_wake {c : Command} {rest : List MStep} (h : RestShape c .wake rest) :
    rest = [] ∨ ∃ us, rest = [waitStep us] := by
  generalize hfirst : Command.wake = first at h
  cases h with
  | none => exact .inl rfl
  | wait us => exact .inr ⟨us, rfl⟩
  | bracket => cases hfirst

theorem firstCommand_eq_wake {i : Instr} (h : (opOf i).wakes = true) : firstCommand i = .wake := by
  simpa [h] using firstCommand_beq_wake i

theorem firstCommand_ne_wake {i : Instr} (h : (opOf i).wakes = false) : firstCommand i ≠ .wake := by
  simpa [h] using firstCommand_beq_wake i

theorem Chip.forbids_of_ne_wake {cmd : Command} (h : cmd ≠ .wake) (c : Chip) :
    c.forbids cmd = ((c.mode == .asleep && !c.lost) || decide (0 < c.recovery) || c.mustWake) := by
  cases cmd with
  | wake => exact absurd rfl h
  | _ => rfl

/-- An operation whose first frame the chip has no meaning for, all calls succeeding: the chip is lost, and the run
marked but where a `wake` is repeated after a failed one. -/
theorem run_forbidden {i : Instr} {s t : State} (hs : s.CallsSucceed) (hv : (planOf i s).valid = true)
    (hp : s.chip.pending = none) (hforbids : s.chip.forbids (firstCommand i) = true)
    (hrun : run (opOf i) (planOf i s).steps (s.begun i) = .finished t) :
    t.chip.lost = true ∧
      (((opOf i).wakes && s.audit.wakeFailed) = false → t.audit.sleepRule = true) ∧
      (((opOf i).wakes && s.audit.wakeFailed) = true → t.audit.sleepRule = s.audit.sleepRule) := by
  obtain ⟨rest, hrest, hsteps⟩ := planOf_firstFrame i s
  obtain ⟨u, hu, hlead⟩ := run_to_firstFrame (i := i) hs hp
  obtain ⟨v, hframe, hmarks⟩ :=
    run_frame_marks hu.succeed (by rw [hu.chip]; rfl) (firstCommand_fits hv) (opOf i) 0
  rw [hsteps, hlead, run_append_of_finished hframe] at hrun
  have huforbids : u.chip.forbids (firstCommand i) = true := by rw [hu.chip, Chip.forbids_onWire, hforbids]
  have hlost : v.chip.lost = true := by rw [hmarks.lost, huforbids, Bool.or_true]
  have hsleep := hmarks.sleepRule
  rw [huforbids, Bool.true_and, firstCommand_beq_wake, hu.marks.sleepRule, hu.marks.wakeFailed, State.accept_sleepRule,
    State.accept_wakeFailed] at hsleep
  have hkept : MarksKept v t := by
    have := run_marksKept (opOf i) rest v
    rwa [hrun] at this
  refine ⟨hkept.lost hlost, fun h => hkept.sleepRule (by simp [hsleep, h]), fun h => ?_⟩
  rw [h] at hsleep
  obtain ⟨hwakes, -⟩ := Bool.and_eq_true_iff.mp h
  have hquiet : t.audit.sleepRule = v.audit.sleepRule := by
    rcases (firstCommand_eq_wake hwakes ▸ hrest).of_wake with rfl | ⟨us, rfl⟩
    · cases hrun
      rfl
    · rw [run, perform_wait (hu.succeed.of_subset hmarks.env).answered] at hrun
      cases hrun
      rfl
  simpa [hquiet, hwakes] using hsleep

/-- Settles O51: the first frame of the operation is one the chip has no meaning for, and nothing after it takes a mark
back; the events are those of any other chip. -/
theorem commandToASleepingChipIsMarked : Obligations.CommandToASleepingChipIsMarked := by
  unfold Obligations.CommandToASleepingChipIsMarked
  intro i s hs hv hp hl hcause
  have hforbids : s.chip.forbids (firstCommand i) = true := by
    cases hw : (opOf i).wakes with
    | false =>
      rw [if_neg (by rw [← Op.wakes_iff, hw]; exact Bool.false_ne_true)] at hcause
      rw [Chip.forbids_of_ne_wake (firstCommand_ne_wake hw), hl]
      simpa [or_assoc] using hcause
    | true =>
      rw [if_pos ((Op.wakes_iff _).mp hw)] at hcause
      rw [firstCommand_eq_wake hw]
      exact decide_eq_true hcause
  obtain ⟨t, hrun, hex⟩ := exec_finishes hs hv
  obtain ⟨hlost, hmarked, hretried⟩ := run_forbidden hs hv hp hforbids hrun
  obtain ⟨r, hr, hok⟩ := t.completed_ok i ((planOf i s).result t)
  have alike : ∀ c : Chip, ∃ t' l l', exec i (s.setChip c) = .next t' ∧
      (t.completed i ((planOf i s).result t)).trace = s.trace ++ l ∧ t'.trace = s.trace ++ l' ∧
      l.map Event.shape = l'.map Event.shape := fun c => by
    obtain ⟨u, u', l, l', hu, hu', hl, hl', hshape⟩ :=
      eventsDependOnSuccessBitsOnly i s (s.setChip c) rfl rfl rfl rfl
    cases hex.symm.trans hu
    exact ⟨u', l, l', hu', hl, hl', hshape⟩
  obtain ⟨-, l, -, -, htrace, -, -⟩ := alike s.chip
  have hexempt : ((opOf i).wakes && s.audit.wakeFailed) = true ↔
      (opOf i = .wake ∨ opOf i = .cmdWake) ∧ s.audit.wakeFailed = true := by
    rw [Bool.and_eq_true, Op.wakes_iff]
  refine ⟨_, r, l, hex, htrace, hr, hok, by rw [State.completed_chip]; exact hlost, fun h => ?_, fun h => ?_,
    fun c => ?_⟩
  · rw [State.completed_sleepRule]
    exact hmarked (Bool.eq_false_of_not_eq_true fun hb => h (hexempt.mp hb))
  · rw [State.completed_sleepRule]
    exact hretried (hexempt.mpr h)
  · obtain ⟨t', l₁, l', ht', htrace₁, hl', hshape⟩ := alike c
    obtain rfl : l = l₁ := List.append_cancel_left (htrace.symm.trans htrace₁)
    exact ⟨t', l', ht', hl', hshape⟩

/-! A status read right after a READ frame. -/

theorem planOf_readsStatus {i : Instr} (h : readsStatus (opOf i) = true) (s : State) :
    (planOf i s).steps = frameSteps 0 Command.rdsr.xfers := by
  cases i with
  | readStatusRegister | isWriteEnabled | isWriteProtected | isBlockProtected => rfl
  | _ => cases h

/-- A status read whose calls all succeed, on any chip with no frame under way: it marks the run exactly right after a
READ frame. -/
theorem exec_statusRead_marks {i : Instr} {s : State} (hs : s.CallsSucceed) (hp : s.chip.pending = none)
    (hi : readsStatus (opOf i) = true) (hv : (planOf i s).valid = true) :
    ∃ t : State, exec i s = .next (t.completed i ((planOf i s).result t)) ∧
      t.audit.readRule = (s.audit.readRule || s.chip.afterRead) := by
  obtain ⟨t, hrun, hmarks⟩ :=
    run_frame_marks (c := .rdsr) (hs.begun i) (by rw [s.begun_chip]; exact hp) trivial (opOf i) 0
  refine ⟨t, exec_finished hv (planOf_readsStatus hi s ▸ hrun), ?_⟩
  rw [hmarks.readRule, s.begun_chip, (s.begun_prepared i).audit]
  simp [Command.isStatus]

end Sys2Proof.Machine
end

section
/-! PROOFS. A select before the wake delay has elapsed, the frame cut before its first byte by a reset event
(spec/70_reset_and_hazards.md R183, R191, spec/20_memory.md R48, R49; log 17), and the three breaches of the sleep and
read rules together. -/

namespace Sys2Proof.Machine

/-! The select. -/

theorem State.joinFrame_delay (s : State) :
    s.joinFrame.chip.recovery = s.chip.recovery ∧ s.joinFrame.audit = s.audit := by
  unfold State.joinFrame
  split
  · exact ⟨rfl, rfl⟩
  · split <;> exact ⟨rfl, rfl⟩

/-- A select within the wake delay, whether it succeeds or fails: the chip is lost, the delay starts anew, and the run
is marked but where a `wake` is repeated after a failed one. -/
theorem State.select_delayed {s : State} (h : 0 < s.chip.recovery) {c : Command} (hf : c.Fits) (ok : Bool) :
    let t := s.pinWrite .low ok (content c.xfers)
    t.chip.lost = true ∧ t.chip.recovery = 400 ∧
      t.audit.sleepRule = (s.audit.sleepRule || !(c == .wake && s.audit.wakeFailed)) := by
  set v := (s.pinWritten .low ok).joinFrame with hv
  obtain ⟨hdelay, haudit⟩ := (s.pinWritten .low ok).joinFrame_delay
  have hbegin : v.beginFrame (content c.xfers) = (v.breakSleepRule (c == .wake)).restartDelay := by
    rw [State.beginFrame, if_pos (by rw [hdelay]; exact h), chipDecode_xfers hf]
    rfl
  simp only [State.pinWrite_eq, State.driveLow, ← hv, hbegin]
  refine ⟨rfl, rfl, ?_⟩
  simp only [State.setChip_audit, State.restartDelay, State.breakSleepRule, State.loseChip, State.setAudit_audit,
    State.draw_audit, haudit, hv]
  rfl

/-! The reset event inside the frame. -/

theorem MStep.asking_quiet (m : MStep) (op : Op) (s : State) : StepQuiet s (m.asking op s) := by
  obtain ⟨k, st, act⟩ := m
  cases act <;> exact ⟨⟨rfl, rfl, rfl, rfl, rfl, fun _ h => h⟩, rfl, rfl, rfl, rfl⟩

/-- In an open frame the reset event meets the next call that is not skipped, the deselect attempt at the latest. -/
theorem run_reset_inFrame (op : Op) {ms : List MStep} (hw : WellPlanned ms) (ho : frameOpen ms = true) {s : State}
    {e : List Answer} (he : s.env = .reset :: e) :
    ∃ u : State, run op ms s = .held u.applyReset ∧ u.chip = s.chip ∧ u.audit = s.audit := by
  induction ms generalizing s with
  | nil => cases ho
  | cons m ms ih =>
    obtain ⟨hm, hopen, hms⟩ := hw
    rw [run]
    rcases m.skips_or_asks s with ⟨x, hx, hfail⟩ | hf
    · rw [perform_skipped op hx hfail]
      exact ih hms (by rw [← hopen, hx]; rfl) he
    · rw [perform_of_reset op hf he]
      exact ⟨_, rfl, (m.asking_quiet op s).chip, (m.asking_quiet op s).audit⟩

/-- An operation but `init` within the wake delay, whose first call is answered and whose second one meets a reset
event. -/
theorem exec_select_delayed {i : Instr} {s : State} (hdelay : 0 < s.chip.recovery) (hi : opOf i ≠ .init)
    (hv : (planOf i s).valid = true) {ok : Bool} {rx : List Byte} {e : List Answer}
    (he : s.env = .reply ok rx :: .reset :: e) :
    ∃ t, exec i s = .next t ∧ t.chip.lost = true ∧ t.chip.recovery = 400 ∧
      ((opOf i).wakes = false ∨ s.audit.wakeFailed = false → t.audit.sleepRule = true) := by
  obtain ⟨rest, -, hsteps⟩ := planOf_firstFrame i s
  rw [leadSteps_of_ne hi, List.nil_append, frameSteps, List.cons_append] at hsteps
  have hplanned := wellPlanned_planOf i s
  rw [hsteps] at hplanned
  obtain ⟨-, hopen, hms⟩ := hplanned
  have hb := s.begun_prepared i
  set m : MStep := ⟨0, .csLow, .csLow (content (firstCommand i).xfers)⟩ with hm
  set w := (m.asking (opOf i) (s.begun i)).setEnv (.reset :: e) with hw
  have hperform : perform (opOf i) m (s.begun i) =
      .next ((w.pinWrite .low ok (content (firstCommand i).xfers)).setFail (!ok)) :=
    perform_of_reply (opOf i) (fun _ hx => by cases hx) (hb.env.trans he)
  obtain ⟨hlost, hrecovery, hsleep⟩ := State.select_delayed (s := w) (hb.chip ▸ hdelay) (firstCommand_fits hv) ok
  obtain ⟨u, hrun, hchip, haudit⟩ := run_reset_inFrame (opOf i) hms hopen.symm
    (s := (w.pinWrite .low ok (content (firstCommand i).xfers)).setFail (!ok)) (e := e) (w.pinWrite_frame .low ok _).env
  have hex : exec i s = .next u.applyReset := by
    rw [exec_valid hv, hsteps, run, hperform]
    simp only [hrun, conclude]
  have hmarks : u.applyReset.audit.sleepRule = (s.audit.sleepRule || (s.chip.mustWake && !(opOf i).wakes) ||
      !((opOf i).wakes && s.audit.wakeFailed)) := by
    rw [show u.applyReset.audit.sleepRule = u.audit.sleepRule from rfl, haudit, State.setFail_audit, hsleep,
      firstCommand_beq_wake, show w.audit = (s.begun i).audit from rfl, hb.audit]
    rfl
  refine ⟨_, hex, ?_, ?_, fun h => ?_⟩
  · rw [State.applyReset_chip, hchip]
    exact hlost
  · rw [State.applyReset_chip, hchip]
    exact hrecovery
  · rw [hmarks]
    rcases h with h | h <;> simp [h]

/-- Settles O60: the first mark is set when the request is accepted, the second at the select, the third at the end of
the status read's frame. -/
theorem brokenRulesAreMarkedAtOnce : Obligations.BrokenRulesAreMarkedAtOnce := by
  unfold Obligations.BrokenRulesAreMarkedAtOnce
  intro i s
  refine ⟨exec_marked_of_mustWake, fun hdelay hi hv ok rx e he => exec_select_delayed hdelay hi hv he,
    fun hread hp hs hi hv => ?_⟩
  obtain ⟨t, hex, hmark⟩ := exec_statusRead_marks hs hp hi hv
  exact ⟨_, hex, by rw [State.completed_readRule, hmark, hread, Bool.or_true]⟩

end Sys2Proof.Machine
end

section
/-! PROOFS. Host operations right after a `read` on a ready chip (spec/70_reset_and_hazards.md R192,
spec/44_status_ops.md R131): a status read is performed and marked there, and legal again once another frame has come between. -/

namespace Sys2Proof.Machine

/-! A frame on a ready chip. -/

/-- A ready chip has taken the frame of `c`: it is ready again unless the frame was a Sleep. -/
structure State.ReadyFrame (s : State) (c : Command) (t : State) : Prop extends s.FrameMarks c t where
  ready : c ≠ .sleep → t.chip.Ready
  level : t.chip.csLevel = .high

theorem run_frame_ready {s : State} {c : Command} (hs : s.CallsSucceed) (hr : s.chip.Ready) (hf : c.Fits) (op : Op)
    (k : Fin 3) : ∃ t, run op (frameSteps k c.xfers) s = .finished t ∧ s.ReadyFrame c t := by
  obtain ⟨t, hrun, htaken⟩ := run_frame_taken (hr.accepts c) hf hs op k
  obtain ⟨u, hrun', hmarks⟩ := run_frame_marks hs (hr.accepts c).pending hf op k
  cases hrun.symm.trans hrun'
  obtain ⟨_, _, _, hchip⟩ := htaken.chip
  exact ⟨t, hrun, hmarks, htaken.ready hr, by rw [hchip]; rfl⟩

/-- What follows the first frame of a micro-program with the command `c`, on a ready chip: it sets no mark. -/
theorem RestShape.run_ready {c first : Command} {rest : List MStep} (h : RestShape c first rest) (hf : c.Fits)
    {s t : State} (hs : s.CallsSucceed) (hframe : s.ReadyFrame first t) (op : Op) :
    ∃ u, run op rest t = .finished u ∧ u.audit.readRule = t.audit.readRule ∧
      (c ≠ .sleep → u.chip.Ready ∧ u.chip.afterRead = c.isRead) := by
  have ht : t.CallsSucceed := hs.of_subset hframe.env
  cases h with
  | none => exact ⟨t, rfl, rfl, fun hc => ⟨hframe.ready hc, hframe.afterRead⟩⟩
  | wait us =>
    refine ⟨t.waited op us, by rw [run, perform_wait ht.answered]; rfl, rfl, fun hc => ?_⟩
    obtain ⟨hmode, hrecovery, hpending, hwake, hlost⟩ := hframe.ready hc
    rw [State.waited_chip hframe.level]
    exact ⟨⟨hmode, by simp [hrecovery], hpending, hwake, hlost⟩, hframe.afterRead⟩
  | bracket hc hread =>
    obtain ⟨u, hrun, hu⟩ := run_frame_ready ht (hframe.ready (by simp)) hf op 1
    obtain ⟨v, hrun', hv⟩ := run_frame_ready (ht.of_subset hu.env) (hu.ready hc) (c := .wrdi) trivial op 2
    refine ⟨v, by rw [run_append_of_finished hrun, hrun'], ?_, fun _ => ⟨hv.ready (by simp), ?_⟩⟩
    · rw [hv.readRule, hu.readRule, hframe.afterRead]
      simp [Command.isStatus, Command.isRead]
    · rw [hv.afterRead, hread]
      rfl

/-! An instruction on a ready chip. -/

theorem mustWakeAfter_of_ne_sleep {i : Instr} (h : commandOf i ≠ .sleep) :
    mustWakeAfter (opOf i) false false = false := by
  cases i with
  | sleep | cmdSleep => exact absurd rfl h
  | _ => rfl

/-- An instruction on a ready chip, all its calls succeeding: it is answered OK, the run is marked for a status command
right after a READ frame, and the chip is ready again unless it sleeps. -/
theorem exec_ready {i : Instr} {s : State} (hs : s.CallsSucceed) (hr : s.chip.Ready) (hv : (planOf i s).valid = true)
    (hf : (commandOf i).Fits) :
    ∃ t, exec i s = .next t ∧ (∃ r, t.response = some r ∧ r.status = .ok) ∧
      t.audit.readRule = (s.audit.readRule || (s.chip.afterRead && (firstCommand i).isStatus)) ∧
      (commandOf i ≠ .sleep → t.chip.Ready ∧ t.chip.afterRead = (commandOf i).isRead) := by
  obtain ⟨rest, hrest, hsteps⟩ := planOf_firstFrame i s
  obtain ⟨u, hu, hlead⟩ := run_to_firstFrame (i := i) hs (hr.accepts .wren).pending
  obtain ⟨hmode, hrecovery, hpending, hwake, hlost⟩ := hr
  have hur : u.chip.Ready := by
    rw [hu.chip]
    exact ⟨hmode, hrecovery, rfl, hwake, hlost⟩
  obtain ⟨v, hrun, hframe⟩ := run_frame_ready hu.succeed hur (firstCommand_fits hv) (opOf i) 0
  obtain ⟨w, hrun', hmark, hready⟩ := hrest.run_ready hf hu.succeed hframe (opOf i)
  refine ⟨_, exec_finished (t := w) hv ?_, w.completed_ok i _, ?_, fun hc => ?_⟩
  · rw [hsteps, hlead, run_append_of_finished hrun, hrun']
  · rw [State.completed_readRule, hmark, hframe.readRule, hu.marks.readRule, hu.chip]
    rfl
  · obtain ⟨⟨hmode, hrecovery, hpending, hwake, hlost⟩, hread⟩ := hready hc
    rw [State.completed_chip, hwake, mustWakeAfter_of_ne_sleep hc]
    exact ⟨⟨hmode, hrecovery, hpending, rfl, hlost⟩, hread⟩

/-- The frame of a well-formed instruction that passes its check does not run past the array. -/
theorem commandOf_fits_of_wellFormed {i : Instr} {s : State} (hv : (planOf i s).valid = true)
    (hw : i.wellFormed = true) : (commandOf i).Fits := by
  by_cases hi : opOf i = .write
  · cases i with
    | write h buf addr len data =>
      obtain ⟨-, hbuf, hrange⟩ : checkHandle h s = true ∧ buf = true ∧ rangeOK s.params.maxXferLen addr len = true := by
        simpa [planOf, planWrite, checkData] using hv
      exact payloadFits_of_rangeOK hrange (by simpa [Instr.wellFormed, hbuf] using hw)
    | _ => cases hi
  · exact commandOf_fits hv hi

/-! Which operations begin with a status command, and which end the time after a READ frame. -/

/-- A host operation other than the four that read the status register begins with no status command: the WRSR frame
stands in its bracket. -/
theorem firstCommand_notStatus {i : Instr} (hs : i.space = .host) (hi : readsStatus (opOf i) = false) :
    (firstCommand i).isStatus = false := by
  cases i with
  | cmdWren | cmdWrdi | cmdRdsr | cmdWrsr | cmdRead | cmdWrite | cmdSleep | cmdWake => cases hs
  | readStatusRegister | isWriteEnabled | isWriteProtected | isBlockProtected => cases hi
  | _ => rfl

/-- The operations of R192 after which a status read is legal: their last frame is no READ, and no Sleep. -/
theorem endsAfterRead {i : Instr} (hi : opOf i = .writeEnable ∨ opOf i = .writeDisable ∨ opOf i = .init ∨
      opOf i = .write ∨ opOf i = .writeStatusRegister ∨ opOf i = .wake) :
    i.space = .host ∧ readsStatus (opOf i) = false ∧ commandOf i ≠ .sleep ∧ (commandOf i).isRead = false := by
  cases i with
  | writeEnable | writeDisable | init | write | writeStatusRegister | wake => exact ⟨rfl, rfl, nofun, rfl⟩
  | _ => simp [opOf] at hi

/-- A bound handle is all that the check of a status read asks of the state. -/
theorem planOf_valid_of_bound {q : Instr} (hq : readsStatus (opOf q) = true) {s t : State}
    (hv : (planOf q s).valid = true) (hb : t.handle.bound = true) : (planOf q t).valid = true := by
  cases q with
  | readStatusRegister | isWriteEnabled | isWriteProtected | isBlockProtected =>
    simp_all [planOf, planReadStatusRegister, planIsWriteEnabled, planIsWriteProtected, planIsBlockProtected, planQuery,
      checkHandle]
  | _ => cases hq

/-- A status read names the status byte or one of its bits. -/
theorem planOf_result_readsStatus {q : Instr} (hq : readsStatus (opOf q) = true) (s t : State) :
    ∃ v sr, ∀ u : State, u.respondOk ((planOf q s).result t) = u.respond .ok v sr none := by
  cases q with
  | readStatusRegister | isWriteEnabled | isWriteProtected | isBlockProtected => exact ⟨_, _, fun _ => rfl⟩
  | _ => cases hq

/-- A status read on a chip with no frame under way, all its calls succeeding: its events and its answer, and the mark
where it comes right after a READ frame. -/
theorem exec_statusRead_shown {q : Instr} {s : State} (hs : s.CallsSucceed) (hp : s.chip.pending = none)
    (hq : readsStatus (opOf q) = true) (hv : (planOf q s).valid = true) :
    ∃ t r b v sr, exec q s = .next t ∧ t.response = some r ∧ r.status = .ok ∧
      t.audit.readRule = (s.audit.readRule || s.chip.afterRead) ∧
      t.trace = s.trace ++ (.req q :: frameEvents s.handle.csPin [sent [0x05#8], exchanged [0x00#8] [b]] ++
        [.rsp .ok v sr none]) := by
  obtain ⟨t, b, hex, -, hdone⟩ := exec_statusFrame hs hv (planOf_readsStatus hq s)
  obtain ⟨u, hex', hmark⟩ := exec_statusRead_marks hs hp hq hv
  obtain ⟨v, sr, hresult⟩ := planOf_result_readsStatus hq s t
  have hi : opOf q ≠ .init := fun h => by rw [h] at hq; cases hq
  obtain ⟨htrace, ⟨r, hr, hok, -⟩, -⟩ := hdone.completes hi (hresult t)
  refine ⟨_, r, b, v, sr, hex, hr, hok, ?_, htrace⟩
  rw [← hmark, Host.Outcome.next.inj (hex.symm.trans hex'), State.completed_readRule]

/-- Settles O52: a `read` leaves the chip ready with AFTER_READ set; a status read's frame comes right after it, and that
of any other host operation ends the time after the READ frame or lengthens it. -/
theorem statusReadRightAfterAReadIsMarked : Obligations.StatusReadRightAfterAReadIsMarked := by
  unfold Obligations.StatusReadRightAfterAReadIsMarked
  intro s addr len he hr hb hrange hnone
  have hs := he.callsSucceed
  obtain ⟨t, hex, -, hmark, hafter⟩ := exec_ready (i := .read true true addr len) hs hr (dataChecks_pass hb hrange)
    (payloadFits_of_rangeOK hrange rfl)
  obtain ⟨htr, htread⟩ := hafter nofun
  have hts : t.CallsSucceed := hs.of_subset (exec_env hs.answered hex)
  have htnone : t.audit.readRule = false := by simp [hmark, hnone, firstCommand, opOf, commandOf, Command.isStatus]
  refine ⟨t, hex, fun q hq hv => ?_, fun i hi hw hv hstatus => ?_, fun i q hi hw hv hq hqv => ?_⟩
  · obtain ⟨u, r, b, v, sr, hu, hresp, hok, hmarked, htrace⟩ :=
      exec_statusRead_shown hts (htr.accepts .rdsr).pending hq hv
    exact ⟨u, r, b, v, sr, hu, hresp, hok, by rw [hmarked, htread]; exact Bool.or_true _, htrace⟩
  · obtain ⟨u, hu, -, hmarked, -⟩ := exec_ready hts htr hv (commandOf_fits_of_wellFormed hv hw)
    exact ⟨u, hu, by rw [hmarked, htnone, firstCommand_notStatus hi hstatus, Bool.and_false]; rfl⟩
  · obtain ⟨hhost, hstatus, hsleep, hread⟩ := endsAfterRead hi
    obtain ⟨u, hu, -, hmarked, hready⟩ := exec_ready hts htr hv (commandOf_fits_of_wellFormed hv hw)
    obtain ⟨hur, huread⟩ := hready hsleep
    obtain ⟨w, r, -, -, -, hw, hresp, hok, hmarked', -⟩ := exec_statusRead_shown
      (hts.of_subset (exec_env hts.answered hu)) (hur.accepts .rdsr).pending hq
      (planOf_valid_of_bound hq hqv (exec_bound hts.answered hv hu))
    refine ⟨u, w, r, hu, hw, hresp, hok, ?_⟩
    rw [hmarked', hmarked, htnone, firstCommand_notStatus hhost hstatus, huread, hread, Bool.and_false]
    rfl

end Sys2Proof.Machine
end
